-- ==== Sys2Proof/Word.lean ====
section
/-! DEFINITION. The words of CORE: a byte (00_scope.md R9) and the 32-bit pattern of a `be32` field (R8 `INT_W`). -/

namespace Sys2Proof

/-- `u8`: an 8-bit unsigned value, bit 7 the most significant (00_scope.md R9). -/
abbrev Byte := BitVec 8

/-- The 32-bit pattern a `be32` field holds (00_scope.md R8, R11). -/
abbrev Word32 := BitVec 32

end Sys2Proof
end

