-- ==== Sys2Proof/Config.lean ====
section
/-! DEFINITION. The parameters of CORE (00_scope.md R8). `COUNTER_WIDTH` and `N_CONN` also stand in the state, as data
no operation writes, so that statements quantify over them; here are the values `State.reset` gives them.
CORE needs no free value: no rule of the spec leaves a result undefined. -/

namespace Sys2Proof.Config

/-- `START`, the sentinel byte (R8, R14). -/
def start : Byte := 0xAA#8

/-- `OVERHEAD`: the bytes of a frame that are not payload (R8). -/
def overhead : Nat := 3

/-- `MIN_LEN`, the smallest legal length byte (R8, R71). -/
def minLen : Nat := 3

/-- `MAX_LEN`, the largest length byte (R8, R71). -/
def maxLen : Nat := 255

/-- `MAX_PAYLOAD` = `MAX_LEN - OVERHEAD` (R8). -/
def maxPayload : Nat := 252

/-- `RXBUF_CAP`, the capacity of `RX.buf` (R8, 10_state.md R24). -/
def rxBufCap : Nat := 252

/-- The least 32-bit signed integer (R8 `INT_W`, R11). -/
def intMin : Int := -2147483648

/-- The greatest 32-bit signed integer (R8 `INT_W`, R11). -/
def intMax : Int := 2147483647

/-- `COUNTER_WIDTH` at reset: the default of R8. Log entry 3. -/
def counterWidth : Nat := 32

/-- `N_CONN` at reset. DESIGN CHOICE, unsafe: R8 and D27 leave it open (at least 1). Log entry 2. -/
def nConn : Nat := 1

end Sys2Proof.Config
end

