-- ==== Sys2Proof/Syntax.lean ====
section
/-! DEFINITION. The operations of CORE as data: one constructor per row of spec/opcode_table.json, and the form in
which the host issues them (30_encoding.md R84, R85). -/

namespace Sys2Proof

/-- The abstract operands that travel beside a host op code (30_encoding.md R85). -/
inductive Operands where
  /-- no operand -/
  | nothing
  /-- a `seq u8` -/
  | bytes (bs : List Byte)
  /-- one `Int` -/
  | int (v : Int)
  /-- the four `Int`s of a stepper builder -/
  | stepper (id accel vel pos : Int)
  /-- an RX instance -/
  | rx (inst : Nat)
  /-- an RX instance and a `u8` -/
  | rxByte (inst : Nat) (b : Byte)
  /-- an RX instance and a `seq u8` -/
  | rxBytes (inst : Nat) (bs : List Byte)
  deriving DecidableEq, Repr

/-- What the host puts to CORE, before it is decoded: the two formats of the opcode table. -/
inductive Request where
  /-- format HOSTOP: a 4-bit op code and the operands beside it (30_encoding.md R84) -/
  | hostOp (op : BitVec 4) (args : Operands)
  /-- format FRAME: the bytes of a wire frame, in wire order, arriving on the line of an RX instance
  (30_encoding.md R70, R75; log entry 1) -/
  | frame (inst : Nat) (bytes : List Byte)
  deriving DecidableEq, Repr

/-- One constructor per row of spec/opcode_table.json. `inst` is the RX instance of the operation (30_encoding.md R85). -/
inductive Instr where
  /-- SERVO_SET, `AA 05 05 angle cks` (30_encoding.md R76) -/
  | servoSet (inst : Nat) (angle cks : Byte)
  /-- STEPPER_MOVE_IMM, `AA 11 0A id accel vel pos cks` (R77) -/
  | stepperMoveImm (inst : Nat) (id : Byte) (accel vel pos : Word32) (cks : Byte)
  /-- STEPPER_MOVE_DEF, `AA 11 0B id accel vel pos cks` (R78) -/
  | stepperMoveDef (inst : Nat) (id : Byte) (accel vel pos : Word32) (cks : Byte)
  /-- EXEC_DEFERRED, `AA 04 0C A2` (R79) -/
  | execDeferred (inst : Nat)
  /-- CHK_COMPUTE (40_checksum.md R101) -/
  | chkCompute (bs : List Byte)
  /-- ENC_FRAME (41_encoder.md R110) -/
  | encFrame (payload : List Byte)
  /-- BLD_SERVO (41_encoder.md R111) -/
  | bldServo (angle : Int)
  /-- BLD_STEP_IMM (41_encoder.md R112) -/
  | bldStepImm (id accel vel pos : Int)
  /-- BLD_STEP_DEF (41_encoder.md R113) -/
  | bldStepDef (id accel vel pos : Int)
  /-- BLD_EXEC_DEF (41_encoder.md R114) -/
  | bldExecDef
  /-- RX_BYTE (42_receiver.md R130) -/
  | rxByte (inst : Nat) (b : Byte)
  /-- RX_CHUNK (42_receiver.md R137) -/
  | rxChunk (inst : Nat) (bs : List Byte)
  /-- CONN_OPEN (42_receiver.md R141) -/
  | connOpen (inst : Nat)
  /-- CONN_CLOSE (42_receiver.md R140) -/
  | connClose (inst : Nat)
  /-- RESERVED_HOSTOP, op codes `101x` (30_encoding.md R86), with whatever operands came beside it -/
  | reservedAB (x : BitVec 1) (args : Operands)
  /-- RESERVED_HOSTOP, op codes `11xx` (30_encoding.md R86), with whatever operands came beside it -/
  | reservedCF (x : BitVec 2) (args : Operands)
  deriving DecidableEq, Repr

end Sys2Proof
end

