-- ==== Sys2Proof/WellFormed.lean ====
section
/-! DEFINITION. Well-formed operations. An RX operation names one of `N_CONN` instances (30_encoding.md R85,
60_exceptions.md R174); every other operand is of its own type, and the types admit what R85 admits. -/

namespace Sys2Proof

/-- The RX instance an operation acts on; `none` for an operation of ENC or CHK and for a reserved op code. -/
def Instr.rxTarget : Instr → Option Nat
  | .servoSet k _ _ => some k
  | .stepperMoveImm k _ _ _ _ _ => some k
  | .stepperMoveDef k _ _ _ _ _ => some k
  | .execDeferred k => some k
  | .chkCompute _ => none
  | .encFrame _ => none
  | .bldServo _ => none
  | .bldStepImm _ _ _ _ => none
  | .bldStepDef _ _ _ _ => none
  | .bldExecDef => none
  | .rxByte k _ => some k
  | .rxChunk k _ => some k
  | .connOpen k => some k
  | .connClose k => some k
  | .reservedAB _ _ => none
  | .reservedCF _ _ => none

/-- Is the operation well formed on a CORE of `n` RX instances? The one check: the instance it names exists. -/
def Instr.wellFormed (n : Nat) (i : Instr) : Bool :=
  match i.rxTarget with
  | none => true
  | some k => decide (k < n)

end Sys2Proof
end

