-- ==== Sys2Proof/Decode.lean ====
section
/-! DEFINITION. The encodings of 30_encoding.md: the `be32` layout, the four command frames, the host op codes; the
decoder, total and rejecting by name, then the encoder, then the opcode table's own numbering of a word. -/

namespace Sys2Proof

/-- Why a request is no operation of CORE. -/
inductive Reject where
  /-- the operands beside the op code are not of the form R85 gives that op -/
  | operandForm (op : BitVec 4)
  /-- the bytes are none of the four command frames of R76 to R79 -/
  | notACommandFrame
  deriving DecidableEq, Repr

/-! ### `be32` and the command descriptors -/

/-- The four bytes of a `be32` field in wire order, most significant first (20_memory.md R52, 30_encoding.md R80). -/
def be32Bytes (t : Word32) : List Byte :=
  [t.extractLsb' 24 8, t.extractLsb' 16 8, t.extractLsb' 8 8, t.extractLsb' 0 8]

/-- The pattern a reader recovers from the four bytes of a `be32` field (30_encoding.md R80). -/
def be32Join (b3 b2 b1 b0 : Byte) : Word32 := b3 ++ b2 ++ b1 ++ b0

/-- Descriptor `0x05`, set servo angle (30_encoding.md R76). -/
def descServo : Byte := 0x05#8
/-- Descriptor `0x0A`, stepper move, immediate (R77). -/
def descStepImm : Byte := 0x0A#8
/-- Descriptor `0x0B`, stepper move, deferred (R78). -/
def descStepDef : Byte := 0x0B#8
/-- Descriptor `0x0C`, execute deferred (R79). -/
def descExecDef : Byte := 0x0C#8

/-- The 14-byte payload of a stepper command (30_encoding.md R77, R78). -/
def stepperPayload (desc id : Byte) (accel vel pos : Word32) : List Byte :=
  [desc, id] ++ be32Bytes accel ++ be32Bytes vel ++ be32Bytes pos

/-- The bytes of a SERVO_SET frame, its checksum byte as it stands on the wire (30_encoding.md R76). -/
def servoFrame (angle cks : Byte) : List Byte := [Config.start, 0x05#8, descServo, angle, cks]

/-- The bytes of a stepper frame, its checksum byte as it stands on the wire (30_encoding.md R77, R78). -/
def stepperFrame (desc id : Byte) (accel vel pos : Word32) (cks : Byte) : List Byte :=
  [Config.start, 0x11#8] ++ stepperPayload desc id accel vel pos ++ [cks]

/-- The bytes of the EXEC_DEFERRED frame (30_encoding.md R79). -/
def execDeferredFrame : List Byte := [Config.start, 0x04#8, descExecDef, 0xA2#8]

/-! ### The decoder -/

/-- The FRAME rows of the opcode table. The checksum byte of SERVO_SET and of the stepper frames is a field: R72
checks it, not the pattern. EXEC_DEFERRED has no field. -/
def decodeFrame (inst : Nat) : List Byte → Except Reject Instr
  | [s, l, d, c] =>
    if s = Config.start ∧ l = 0x04#8 ∧ d = descExecDef ∧ c = 0xA2#8 then .ok (.execDeferred inst)
    else .error .notACommandFrame
  | [s, l, d, a, c] =>
    if s = Config.start ∧ l = 0x05#8 ∧ d = descServo then .ok (.servoSet inst a c)
    else .error .notACommandFrame
  | [s, l, d, i, a3, a2, a1, a0, v3, v2, v1, v0, p3, p2, p1, p0, c] =>
    if s = Config.start ∧ l = 0x11#8 ∧ d = descStepImm then
      .ok (.stepperMoveImm inst i (be32Join a3 a2 a1 a0) (be32Join v3 v2 v1 v0) (be32Join p3 p2 p1 p0) c)
    else if s = Config.start ∧ l = 0x11#8 ∧ d = descStepDef then
      .ok (.stepperMoveDef inst i (be32Join a3 a2 a1 a0) (be32Join v3 v2 v1 v0) (be32Join p3 p2 p1 p0) c)
    else .error .notACommandFrame
  | _ => .error .notACommandFrame

/-- The HOSTOP rows of the opcode table (30_encoding.md R84 to R86). -/
def decodeHostOp (op : BitVec 4) (args : Operands) : Except Reject Instr :=
  match op.toNat with
  | 0 => match args with | .bytes bs => .ok (.chkCompute bs) | _ => .error (.operandForm op)
  | 1 => match args with | .bytes bs => .ok (.encFrame bs) | _ => .error (.operandForm op)
  | 2 => match args with | .int v => .ok (.bldServo v) | _ => .error (.operandForm op)
  | 3 => match args with | .stepper i a v p => .ok (.bldStepImm i a v p) | _ => .error (.operandForm op)
  | 4 => match args with | .stepper i a v p => .ok (.bldStepDef i a v p) | _ => .error (.operandForm op)
  | 5 => match args with | .nothing => .ok .bldExecDef | _ => .error (.operandForm op)
  | 6 => match args with | .rxByte k b => .ok (.rxByte k b) | _ => .error (.operandForm op)
  | 7 => match args with | .rxBytes k bs => .ok (.rxChunk k bs) | _ => .error (.operandForm op)
  | 8 => match args with | .rx k => .ok (.connOpen k) | _ => .error (.operandForm op)
  | 9 => match args with | .rx k => .ok (.connClose k) | _ => .error (.operandForm op)
  | n => if n < 12 then .ok (.reservedAB (op.setWidth 1) args) else .ok (.reservedCF (op.setWidth 2) args)

/-- The operation a request stands for, or the reason it is none. -/
def decode : Request → Except Reject Instr
  | .hostOp op args => decodeHostOp op args
  | .frame inst bytes => decodeFrame inst bytes

/-! ### The encoder -/

/-- The request that stands for an operation (30_encoding.md R76 to R79 for frames, R84 for op codes). -/
def encode : Instr → Request
  | .servoSet k a c => .frame k (servoFrame a c)
  | .stepperMoveImm k i a v p c => .frame k (stepperFrame descStepImm i a v p c)
  | .stepperMoveDef k i a v p c => .frame k (stepperFrame descStepDef i a v p c)
  | .execDeferred k => .frame k execDeferredFrame
  | .chkCompute bs => .hostOp 0x0#4 (.bytes bs)
  | .encFrame bs => .hostOp 0x1#4 (.bytes bs)
  | .bldServo v => .hostOp 0x2#4 (.int v)
  | .bldStepImm i a v p => .hostOp 0x3#4 (.stepper i a v p)
  | .bldStepDef i a v p => .hostOp 0x4#4 (.stepper i a v p)
  | .bldExecDef => .hostOp 0x5#4 .nothing
  | .rxByte k b => .hostOp 0x6#4 (.rxByte k b)
  | .rxChunk k bs => .hostOp 0x7#4 (.rxBytes k bs)
  | .connOpen k => .hostOp 0x8#4 (.rx k)
  | .connClose k => .hostOp 0x9#4 (.rx k)
  | .reservedAB x args => .hostOp (0b101#3 ++ x) args
  | .reservedCF x args => .hostOp (0b11#2 ++ x) args

/-! ### The opcode table's own rows and numbering -/

/-- The two formats of spec/opcode_table.json. -/
inductive Format where
  | hostOp
  | frame
  deriving DecidableEq, Repr

/-- One row of spec/opcode_table.json: a word of `nbits` bits belongs to it when it agrees with `pattern` on the
bits of `mask`. A FRAME row reads the whole frame as one number, byte 0 the most significant. -/
structure Row where
  format : Format
  nbits : Nat
  pattern : Nat
  mask : Nat
  deriving DecidableEq, Repr

/-- The row of spec/opcode_table.json that an operation belongs to. -/
def Instr.row : Instr → Row
  | .servoSet _ _ _ => ⟨.frame, 40, 0xAA05050000, 0xFFFFFF0000⟩
  | .stepperMoveImm _ _ _ _ _ _ =>
    ⟨.frame, 136, 0xAA110A0000000000000000000000000000, 0xFFFFFF0000000000000000000000000000⟩
  | .stepperMoveDef _ _ _ _ _ _ =>
    ⟨.frame, 136, 0xAA110B0000000000000000000000000000, 0xFFFFFF0000000000000000000000000000⟩
  | .execDeferred _ => ⟨.frame, 32, 0xAA040CA2, 0xFFFFFFFF⟩
  | .chkCompute _ => ⟨.hostOp, 4, 0x0, 0xF⟩
  | .encFrame _ => ⟨.hostOp, 4, 0x1, 0xF⟩
  | .bldServo _ => ⟨.hostOp, 4, 0x2, 0xF⟩
  | .bldStepImm _ _ _ _ => ⟨.hostOp, 4, 0x3, 0xF⟩
  | .bldStepDef _ _ _ _ => ⟨.hostOp, 4, 0x4, 0xF⟩
  | .bldExecDef => ⟨.hostOp, 4, 0x5, 0xF⟩
  | .rxByte _ _ => ⟨.hostOp, 4, 0x6, 0xF⟩
  | .rxChunk _ _ => ⟨.hostOp, 4, 0x7, 0xF⟩
  | .connOpen _ => ⟨.hostOp, 4, 0x8, 0xF⟩
  | .connClose _ => ⟨.hostOp, 4, 0x9, 0xF⟩
  | .reservedAB _ _ => ⟨.hostOp, 4, 0xA, 0xE⟩
  | .reservedCF _ _ => ⟨.hostOp, 4, 0xC, 0xC⟩

/-- A byte sequence as one number, byte 0 the most significant. -/
def beNumber : List Byte → Nat
  | [] => 0
  | b :: t => b.toNat * 256 ^ t.length + beNumber t

/-- Does a request's word agree with a row of the opcode table? -/
def Row.matches (r : Row) : Request → Bool
  | .hostOp op _ => r.format == .hostOp && (op.toNat &&& r.mask) == r.pattern
  | .frame _ bytes =>
    r.format == .frame && bytes.length * 8 == r.nbits && (beNumber bytes &&& r.mask) == r.pattern

/-- `n` bytes of a number, most significant byte first. -/
def beBytes : Nat → Nat → List Byte
  | 0, _ => []
  | n + 1, w => BitVec.ofNat 8 (w / 256 ^ n) :: beBytes n w

/-- The operands "of zeros" of an op code, in the form R85 gives it. -/
def zeroOperands (op : BitVec 4) : Operands :=
  match op.toNat with
  | 0 => .bytes []
  | 1 => .bytes []
  | 2 => .int 0
  | 3 => .stepper 0 0 0 0
  | 4 => .stepper 0 0 0 0
  | 5 => .nothing
  | 6 => .rxByte 0 0x00#8
  | 7 => .rxBytes 0 []
  | 8 => .rx 0
  | 9 => .rx 0
  | _ => .nothing

/-- A word as spec/opcode_table.json numbers it, laid out as a request: a HOSTOP word of at most one byte is an op
code with operands of zeros; a longer word is a frame read as ONE number (98_reader.md), most significant byte
first on the wire, on the line of instance 0. A one-byte word above 15 is no op code and stands for a one-byte
frame, which the decoder rejects. Log entry 9. -/
def requestOfWord (nbits w : Nat) : Request :=
  if nbits ≤ 8 ∧ w < 16 then .hostOp (BitVec.ofNat 4 w) (zeroOperands (BitVec.ofNat 4 w))
  else .frame 0 (beBytes ((nbits + 7) / 8) w)

/-- The operation the decoder reads from a table word. -/
def decodeTableWord (nbits w : Nat) : Option Instr :=
  match decode (requestOfWord nbits w) with
  | .ok i => some i
  | .error _ => none

end Sys2Proof
end

