-- ==== Sys2Proof/Machine/State.lean ====
section
/-! DEFINITION. The state of CORE (10_state.md): one `Rx` per connection, the configuration no operation writes, and
the interface as data. ENC and CHK hold nothing (R20, R28). CORE has no memory, registers or program counter (R30, R50). -/

namespace Sys2Proof.Machine

open Sys2Proof

/-- `RX.phase` (10_state.md R22). -/
inductive Phase where
  /-- "scanning for `0xAA`" -/
  | awaitingStart
  /-- "one byte read is interpreted as `length`" -/
  | awaitingLength
  /-- "read `length - 3` further bytes" -/
  | accumulatingPayload
  /-- "read one checksum byte" -/
  | awaitingChecksum
  deriving DecidableEq, Repr

/-- The two errors an ENC operation returns (00_scope.md R13, 60_exceptions.md R161, R162). -/
inductive EncError where
  | payloadTooLarge
  | numericOverflow
  deriving DecidableEq, Repr

/-- The reason of a `MalformedFrame` event (00_scope.md R13, 60_exceptions.md R163, R164). -/
inductive Reason where
  | lengthTooSmall
  | checksumFailed
  deriving DecidableEq, Repr

/-- An event of an RX operation (00_scope.md R13). -/
inductive Event where
  /-- the whole payload, and the packet counter after its increment (42_receiver.md R135) -/
  | completedFrame (payload : List Byte) (count : Nat)
  | malformedFrame (reason : Reason)
  deriving DecidableEq, Repr

/-- The result of an operation (00_scope.md R13). -/
inductive Result where
  /-- `Ok` of a byte sequence -/
  | okBytes (bs : List Byte)
  /-- `Ok` of a byte -/
  | okByte (b : Byte)
  /-- `Ok` of nothing -/
  | okUnit
  /-- `Err` -/
  | err (e : EncError)
  /-- `Events` of a list, in the order of the bytes that caused them -/
  | events (es : List Event)
  deriving DecidableEq, Repr

/-- One RX instance (10_state.md R21 to R26). -/
structure Rx where
  /-- `RX.open` (R21) -/
  isOpen : Bool
  /-- `RX.phase` (R22) -/
  phase : Phase
  /-- `RX.len`, the declared total length of the frame being received (R23) -/
  len : Byte
  /-- `RX.buf`, the payload bytes received so far, in arrival order (R24) -/
  buf : List Byte
  /-- `RX.acc`, the running XOR of the frame's bytes (R25) -/
  acc : Byte
  /-- `RX.count`, the packet counter, reduced modulo 2^COUNTER_WIDTH at every increment (R26) -/
  count : Nat
  deriving DecidableEq, Repr

/-- The power-on state of an RX instance (70_reset_and_hazards.md R180). -/
def Rx.powerOn : Rx :=
  { isOpen := false, phase := .awaitingStart, len := 0x00#8, buf := [], acc := 0x00#8, count := 0 }

/-- One operation as the host issued it. `inProgress` lists the RX instances on which an earlier operation had not
yet returned when the host issued this one (70_reset_and_hazards.md R184; log entry 6). -/
structure Issue where
  request : Request
  inProgress : List Nat
  deriving DecidableEq, Repr

/-- The state of CORE and of its interface. -/
structure State where
  /-- the RX instances, number 0 first; their number is `N_CONN` (00_scope.md R8, 60_exceptions.md R174) -/
  rx : List Rx
  /-- `COUNTER_WIDTH` (00_scope.md R8); configuration, which no operation writes (10_state.md R31) -/
  counterWidth : Nat
  /-- the results of the operations carried out so far, oldest first (00_scope.md R13, 70_reset_and_hazards.md R188) -/
  results : List Result
  /-- what the host has issued and CORE has not yet carried out, oldest first (20_memory.md R65) -/
  program : List Issue
  deriving DecidableEq, Repr

/-- `N_CONN`, the number of RX instances (00_scope.md R8). -/
def State.nConn (s : State) : Nat := s.rx.length

/-- CORE has no fault: no error is fatal and there is no trap (60_exceptions.md R166, R170). -/
inductive Fault
  deriving DecidableEq, Repr

/-- Why an operation has no meaning; the machine then takes no step (00_scope.md R12, 60_exceptions.md R167). -/
inductive Refusal where
  /-- raised by an arm of `exec` whose instruction has no meaning yet; safe: nothing can be proved of such a step -/
  | notModelled (mnemonic : String)
  /-- raised by RX_BYTE, RX_CHUNK and an arriving frame while `RX.open` is false (42_receiver.md R130, R137); safe -/
  | connectionClosed (inst : Nat)
  /-- raised by an RX operation that names no instance of this CORE (30_encoding.md R85; log entry 8); safe -/
  | noSuchRx (inst : Nat)
  /-- raised by the reserved op codes `0xA` to `0xF` (30_encoding.md R86); safe -/
  | reservedHostOp (op : BitVec 4)
  /-- raised by a step whose RX operation was issued while another on its instance was in progress
  (70_reset_and_hazards.md R184), whether or not that instance is open or exists (log entry 6); safe -/
  | overlappingRx (inst : Nat)
  /-- raised by a step whose request has operands of another form than its op's (30_encoding.md R85; log entry 7); safe -/
  | operandForm (op : BitVec 4)
  /-- raised by a step whose FRAME request is none of the four command frames (log entry 7); safe: any bytes can be
  given to RX_CHUNK -/
  | notACommandFrame
  deriving DecidableEq, Repr

/-- The power-on state of a CORE with `n` RX instances and a counter of `w` bits (70_reset_and_hazards.md R180,
60_exceptions.md R174): the host has issued nothing and nothing has been returned. -/
def State.resetWith (n w : Nat) : State :=
  { rx := List.replicate n Rx.powerOn, counterWidth := w, results := [], program := [] }

/-- The machine right after reset (70_reset_and_hazards.md R180), with the parameters of `Config`. -/
def State.reset : State := State.resetWith Config.nConn Config.counterWidth

end Sys2Proof.Machine
end

