-- ==== Sys2Proof/Machine/Flags.lean ====
section
/-! DEFINITION. CORE has no flags and no condition codes (10_state.md R30). In their place stand the checksum, whose
comparison decides the fate of a frame, and the codes of results and events (30_encoding.md R87, 10_state.md R22). -/

namespace Sys2Proof.Machine

open Sys2Proof

/-- `fold_xor`: the XOR of a byte sequence, from `0x00` (40_checksum.md R100). -/
def foldXor (s : List Byte) : Byte := s.foldl (fun a b => a ^^^ b) 0x00#8

/-- The 2-bit code of a phase (10_state.md R22, D2). -/
def Phase.code : Phase → BitVec 2
  | .awaitingStart => 0b00#2
  | .awaitingLength => 0b01#2
  | .accumulatingPayload => 0b10#2
  | .awaitingChecksum => 0b11#2

/-- The status code of an encode error (30_encoding.md R87, D6). -/
def EncError.code : EncError → Nat
  | .payloadTooLarge => 1
  | .numericOverflow => 2

/-- The status code of a result: `Ok` is 0 (30_encoding.md R87, D6). `Events` is neither `Ok` nor `Err` and has none. -/
def Result.status : Result → Option Nat
  | .okBytes _ => some 0
  | .okByte _ => some 0
  | .okUnit => some 0
  | .err e => some e.code
  | .events _ => none

/-- The kind code of an event (30_encoding.md R87, D6). -/
def Event.code : Event → Nat
  | .completedFrame _ _ => 1
  | .malformedFrame .lengthTooSmall => 2
  | .malformedFrame .checksumFailed => 3

/-- The code of what an RX_BYTE emitted: 0 for no event (30_encoding.md R87). -/
def eventCode : List Event → Nat
  | [] => 0
  | e :: _ => e.code

/-- How many of the events are completed frames. -/
def completedCount : List Event → Nat
  | [] => 0
  | .completedFrame _ _ :: t => completedCount t + 1
  | .malformedFrame _ :: t => completedCount t

end Sys2Proof.Machine
end

