-- ==== Sys2Proof/Machine/Operands.lean ====
section
/-! DEFINITION. The conversions of the builders' operands (41_encoder.md R115 to R118). Operands are unbounded `Int`s
(30_encoding.md R85); no conversion wraps. -/

namespace Sys2Proof.Machine

open Sys2Proof

/-- `clamp(v, lo, hi) = min(max(v, lo), hi)` (00_scope.md R11). -/
def clamp (v lo hi : Int) : Int := min (max v lo) hi

/-- `angle_byte`: the servo angle saturates to 0..255 (41_encoder.md R115). -/
def angleByte (angle : Int) : Byte := BitVec.ofInt 8 (clamp angle 0 255)

/-- `id_byte`: the absolute value, `NumericOverflow` above 255 (41_encoder.md R116). -/
def idByte (id : Int) : Except EncError Byte :=
  if id.natAbs > 255 then .error .numericOverflow else .ok (BitVec.ofNat 8 id.natAbs)

/-- `tc32`: the 32-bit two's-complement pattern (00_scope.md R11). -/
def tc32 (v : Int) : Word32 := BitVec.ofInt 32 v

/-- `be32`: four bytes, most significant first; `NumericOverflow` outside the signed 32-bit range (41_encoder.md R117). -/
def be32 (v : Int) : Except EncError (List Byte) :=
  if v < Config.intMin ∨ v > Config.intMax then .error .numericOverflow else .ok (be32Bytes (tc32 v))

end Sys2Proof.Machine
end

