-- ==== Sys2Proof/Machine/Ops.lean ====
section
/-! DEFINITION. The shared operations over the state: answering the host, raising an error, running an operation on an
RX instance. CORE has no trap: raising an error returns it as the result and writes nothing else
(60_exceptions.md R160, R170), and there is no return from it. -/

namespace Sys2Proof.Machine

open Sys2Proof

/-- `return`: the operation's result goes to the host (00_scope.md R12, R13). -/
def State.answer (s : State) (r : Result) : State := { s with results := s.results ++ [r] }

/-- `raise`: the operation ends with the error, no bytes, no state written (00_scope.md R12, 60_exceptions.md R160). -/
def State.raise (s : State) (e : EncError) : State := s.answer (.err e)

/-- The end of an ENC operation: `Ok(bytes)`, or the error it raised (00_scope.md R13). -/
def State.finish (s : State) : Except EncError (List Byte) → State
  | .ok bs => s.answer (.okBytes bs)
  | .error e => s.raise e

/-- `RX.f <- v` on instance `k`: all writes of the operation at once (00_scope.md R12, 20_memory.md R57). -/
def State.setRx (s : State) (k : Nat) (r : Rx) : State := { s with rx := s.rx.set k r }

/-- An operation on RX instance `k`: `f` maps the instance's state to its new state and the result. Refused where
there is no such instance (30_encoding.md R85). -/
def onRx (k : Nat) (s : State) (f : Rx → Rx × Result) : Host.Outcome State Fault Refusal :=
  match s.rx[k]? with
  | none => .refused (.noSuchRx k)
  | some r => .next ((s.setRx k (f r).1).answer (f r).2)

/-- An operation on RX instance `k` that is refused while the connection is closed (42_receiver.md R130, R137). -/
def onOpenRx (k : Nat) (s : State) (f : Rx → Rx × Result) : Host.Outcome State Fault Refusal :=
  match s.rx[k]? with
  | none => .refused (.noSuchRx k)
  | some r => if r.isOpen then onRx k s f else .refused (.connectionClosed k)

/-- Back to `AwaitingStart` with `len`, `buf` and `acc` cleared (42_receiver.md R132, R135, R136, R140, R141; D12). -/
def Rx.toStart (r : Rx) : Rx := { r with phase := .awaitingStart, len := 0x00#8, buf := [], acc := 0x00#8 }

/-- A malformed frame: back to `AwaitingStart`, one event, the counter as it was (60_exceptions.md R163, R164). -/
def Rx.malformed (r : Rx) (why : Reason) : Rx × List Event := (r.toStart, [.malformedFrame why])

end Sys2Proof.Machine
end

