-- ==== Sys2Proof/Machine/Checksum.lean ====
section
/-! DEFINITION. The operation of CHK (40_checksum.md). -/

namespace Sys2Proof.Machine

open Sys2Proof

/-- CHK_COMPUTE (40_checksum.md R101): total, writes no state. -/
def execChkCompute (bs : List Byte) (s : State) : Host.Outcome State Fault Refusal :=
  .next (s.answer (.okByte (foldXor bs)))

end Sys2Proof.Machine
end

