-- ==== Sys2Proof/Machine/Connection.lean ====
section
/-! DEFINITION. The connection operations of RX (42_receiver.md R140, R141; 70_reset_and_hazards.md R181). -/

namespace Sys2Proof.Machine

open Sys2Proof

/-- The instance after CONN_OPEN (42_receiver.md R141). -/
def Rx.opened (r : Rx) : Rx := { r.toStart with isOpen := true, count := 0 }

/-- The instance after CONN_CLOSE: the counter stays (42_receiver.md R140; D10). -/
def Rx.closed (r : Rx) : Rx := { r.toStart with isOpen := false }

/-- CONN_OPEN (42_receiver.md R141). -/
def execConnOpen (k : Nat) (s : State) : Host.Outcome State Fault Refusal :=
  onRx k s (fun r => (r.opened, .okUnit))

/-- CONN_CLOSE (42_receiver.md R140): no event for the dropped frame. -/
def execConnClose (k : Nat) (s : State) : Host.Outcome State Fault Refusal :=
  onRx k s (fun r => (r.closed, .events []))

end Sys2Proof.Machine
end

