-- ==== Sys2Proof/Machine/Encoder.lean ====
section
/-! DEFINITION. The operations of ENC (41_encoder.md): pure functions of their operands (R120), and the operations that
return what they compute to the host. -/

namespace Sys2Proof.Machine

open Sys2Proof

/-- A frame's bytes before its checksum: start, length, payload (30_encoding.md R70, R71). -/
def frameBody (payload : List Byte) : List Byte :=
  [Config.start, BitVec.ofNat 8 (payload.length + Config.overhead)] ++ payload

/-- `encode(payload)` (41_encoder.md R110). -/
def encodeFrame (payload : List Byte) : Except EncError (List Byte) :=
  if payload.length > Config.maxPayload then .error .payloadTooLarge
  else .ok (frameBody payload ++ [foldXor (frameBody payload)])

/-- The servo payload (41_encoder.md R111). -/
def buildServo (angle : Int) : Except EncError (List Byte) := .ok [descServo, angleByte angle]

/-- A stepper payload, its conversions in the order id, acceleration, velocity, position (41_encoder.md R112, R113;
60_exceptions.md R168). -/
def buildStepper (desc : Byte) (id accel vel pos : Int) : Except EncError (List Byte) :=
  match idByte id with
  | .error e => .error e
  | .ok i =>
    match be32 accel with
    | .error e => .error e
    | .ok a =>
      match be32 vel with
      | .error e => .error e
      | .ok v =>
        match be32 pos with
        | .error e => .error e
        | .ok p => .ok ([desc, i] ++ a ++ v ++ p)

/-- The execute-deferred payload (41_encoder.md R114). -/
def buildExecDef : Except EncError (List Byte) := .ok [descExecDef]

/-- A builder followed by ENC_FRAME of its payload, the composite `SEND_x`; a builder's error ends it
(41_encoder.md R119, 30_encoding.md R88). -/
def sendFrame (built : Except EncError (List Byte)) : Except EncError (List Byte) :=
  match built with
  | .ok payload => encodeFrame payload
  | .error e => .error e

/-- ENC_FRAME (41_encoder.md R110). -/
def execEncFrame (payload : List Byte) (s : State) : Host.Outcome State Fault Refusal :=
  .next (s.finish (encodeFrame payload))

/-- BLD_SERVO (41_encoder.md R111). -/
def execBldServo (angle : Int) (s : State) : Host.Outcome State Fault Refusal :=
  .next (s.finish (buildServo angle))

/-- BLD_STEP_IMM (41_encoder.md R112). -/
def execBldStepImm (id accel vel pos : Int) (s : State) : Host.Outcome State Fault Refusal :=
  .next (s.finish (buildStepper descStepImm id accel vel pos))

/-- BLD_STEP_DEF (41_encoder.md R113). -/
def execBldStepDef (id accel vel pos : Int) (s : State) : Host.Outcome State Fault Refusal :=
  .next (s.finish (buildStepper descStepDef id accel vel pos))

/-- BLD_EXEC_DEF (41_encoder.md R114). -/
def execBldExecDef (s : State) : Host.Outcome State Fault Refusal :=
  .next (s.finish buildExecDef)

end Sys2Proof.Machine
end

