-- ==== Sys2Proof/Machine/Receiver.lean ====
section
/-! DEFINITION. The operations of RX on bytes (42_receiver.md R130 to R137). `w` is `COUNTER_WIDTH`. -/

namespace Sys2Proof.Machine

open Sys2Proof

/-- RX_BYTE in `AwaitingStart` (42_receiver.md R131). -/
def Rx.takeStart (r : Rx) (b : Byte) : Rx × List Event :=
  if b = Config.start then ({ r with phase := .awaitingLength, acc := Config.start }, []) else (r, [])

/-- RX_BYTE in `AwaitingLength` (42_receiver.md R132, R133; D13). -/
def Rx.takeLength (r : Rx) (b : Byte) : Rx × List Event :=
  if b.toNat < Config.minLen then r.malformed .lengthTooSmall
  else
    ({ r with
        len := b
        acc := r.acc ^^^ b
        phase := if b.toNat = Config.minLen then .awaitingChecksum else .accumulatingPayload }, [])

/-- RX_BYTE in `AccumulatingPayload` (42_receiver.md R134). -/
def Rx.takePayload (r : Rx) (b : Byte) : Rx × List Event :=
  ({ r with
      buf := r.buf ++ [b]
      acc := r.acc ^^^ b
      phase :=
        if (r.buf ++ [b]).length = r.len.toNat - Config.overhead then .awaitingChecksum
        else .accumulatingPayload }, [])

/-- The packet counter after one more frame (10_state.md R26; D7). -/
def Rx.nextCount (w : Nat) (r : Rx) : Nat := (r.count + 1) % 2 ^ w

/-- RX_BYTE in `AwaitingChecksum` (42_receiver.md R135, R136; D7, D8, D28). -/
def Rx.takeChecksum (w : Nat) (r : Rx) (b : Byte) : Rx × List Event :=
  if b = r.acc then ({ r.toStart with count := r.nextCount w }, [.completedFrame r.buf (r.nextCount w)])
  else r.malformed .checksumFailed

/-- One byte through the phase machine (42_receiver.md R130). -/
def Rx.take (w : Nat) (r : Rx) (b : Byte) : Rx × List Event :=
  match r.phase with
  | .awaitingStart => r.takeStart b
  | .awaitingLength => r.takeLength b
  | .accumulatingPayload => r.takePayload b
  | .awaitingChecksum => r.takeChecksum w b

/-- One byte after another, the events in byte order (42_receiver.md R137). -/
def Rx.feed (w : Nat) (r : Rx) : List Byte → Rx × List Event
  | [] => (r, [])
  | b :: bs => ((Rx.feed w (r.take w b).1 bs).1, (r.take w b).2 ++ (Rx.feed w (r.take w b).1 bs).2)

/-- Bytes delivered to instance `k` in one operation (42_receiver.md R137; 20_memory.md R57). -/
def deliver (k : Nat) (bs : List Byte) (s : State) : Host.Outcome State Fault Refusal :=
  onOpenRx k s (fun r => ((r.feed s.counterWidth bs).1, .events (r.feed s.counterWidth bs).2))

/-- RX_BYTE (42_receiver.md R130). -/
def execRxByte (k : Nat) (b : Byte) (s : State) : Host.Outcome State Fault Refusal :=
  onOpenRx k s (fun r => ((r.take s.counterWidth b).1, .events (r.take s.counterWidth b).2))

/-- RX_CHUNK (42_receiver.md R137). -/
def execRxChunk (k : Nat) (bs : List Byte) (s : State) : Host.Outcome State Fault Refusal :=
  deliver k bs s

end Sys2Proof.Machine
end

