-- ==== Sys2Proof/Machine/Reserved.lean ====
section
/-! DEFINITION. The reserved host op codes (30_encoding.md R86): "have no meaning. A model refuses them". -/

namespace Sys2Proof.Machine

open Sys2Proof

/-- RESERVED_HOSTOP, op codes `0xA` and `0xB` (30_encoding.md R86): refused whatever the operands and the state. -/
def execReservedAB (x : BitVec 1) (_ : Operands) (_ : State) : Host.Outcome State Fault Refusal :=
  .refused (.reservedHostOp (0b101#3 ++ x))

/-- RESERVED_HOSTOP, op codes `0xC` to `0xF` (30_encoding.md R86): refused whatever the operands and the state. -/
def execReservedCF (x : BitVec 2) (_ : Operands) (_ : State) : Host.Outcome State Fault Refusal :=
  .refused (.reservedHostOp (0b11#2 ++ x))

end Sys2Proof.Machine
end

