-- ==== Sys2Proof/Machine/WireFrame.lean ====
section
/-! DEFINITION. The command frames of the opcode table (30_encoding.md R76 to R79) as operations of CORE: the frame's
bytes arrive, whole, on the line of an RX instance, which treats them as it treats any bytes (R81; 42_receiver.md
R143). DESIGN CHOICE, log entry 1. What the attached device does with a command is outside CORE (00_scope.md R4). -/

namespace Sys2Proof.Machine

open Sys2Proof

/-- SERVO_SET (30_encoding.md R76). -/
def execServoSet (k : Nat) (angle cks : Byte) (s : State) : Host.Outcome State Fault Refusal :=
  deliver k (servoFrame angle cks) s

/-- STEPPER_MOVE_IMM (30_encoding.md R77). -/
def execStepperMoveImm (k : Nat) (id : Byte) (accel vel pos : Word32) (cks : Byte) (s : State) :
    Host.Outcome State Fault Refusal :=
  deliver k (stepperFrame descStepImm id accel vel pos cks) s

/-- STEPPER_MOVE_DEF (30_encoding.md R78). -/
def execStepperMoveDef (k : Nat) (id : Byte) (accel vel pos : Word32) (cks : Byte) (s : State) :
    Host.Outcome State Fault Refusal :=
  deliver k (stepperFrame descStepDef id accel vel pos cks) s

/-- EXEC_DEFERRED (30_encoding.md R79). -/
def execExecDeferred (k : Nat) (s : State) : Host.Outcome State Fault Refusal :=
  deliver k execDeferredFrame s

end Sys2Proof.Machine
end

