-- ==== Sys2Proof/Machine/Dispatch.lean ====
section
/-! DEFINITION. One arm per operation, each a direct call of its meaning. -/

namespace Sys2Proof.Machine

open Sys2Proof

def exec (i : Instr) (s : State) : Host.Outcome State Fault Refusal :=
  match i with
  | .servoSet k angle cks => Sys2Proof.Machine.execServoSet k angle cks s
  | .stepperMoveImm k id accel vel pos cks => Sys2Proof.Machine.execStepperMoveImm k id accel vel pos cks s
  | .stepperMoveDef k id accel vel pos cks => Sys2Proof.Machine.execStepperMoveDef k id accel vel pos cks s
  | .execDeferred k => Sys2Proof.Machine.execExecDeferred k s
  | .chkCompute bs => Sys2Proof.Machine.execChkCompute bs s
  | .encFrame payload => Sys2Proof.Machine.execEncFrame payload s
  | .bldServo angle => Sys2Proof.Machine.execBldServo angle s
  | .bldStepImm id accel vel pos => Sys2Proof.Machine.execBldStepImm id accel vel pos s
  | .bldStepDef id accel vel pos => Sys2Proof.Machine.execBldStepDef id accel vel pos s
  | .bldExecDef => Sys2Proof.Machine.execBldExecDef s
  | .rxByte k b => Sys2Proof.Machine.execRxByte k b s
  | .rxChunk k bs => Sys2Proof.Machine.execRxChunk k bs s
  | .connOpen k => Sys2Proof.Machine.execConnOpen k s
  | .connClose k => Sys2Proof.Machine.execConnClose k s
  | .reservedAB x args => Sys2Proof.Machine.execReservedAB x args s
  | .reservedCF x args => Sys2Proof.Machine.execReservedCF x args s

end Sys2Proof.Machine
end

