-- ==== Sys2Proof/Machine/Fetch.lean ====
section
/-! DEFINITION. Taking up the operation the host issued: decode it, and refuse what has no meaning
(00_scope.md R12; 60_exceptions.md R167). -/

namespace Sys2Proof.Machine

open Sys2Proof

/-- The refusal of a request the decoder rejects. Log entry 7. -/
def Refusal.ofReject : Reject → Refusal
  | .operandForm op => .operandForm op
  | .notACommandFrame => .notACommandFrame

/-- The instance on which the operation overlaps another RX operation, if it does (70_reset_and_hazards.md R184).
An operation of ENC or CHK never does (20_memory.md R61). -/
def overlapOf (i : Instr) (inProgress : List Nat) : Option Nat :=
  match i.rxTarget with
  | none => none
  | some k => if k ∈ inProgress then some k else none

/-- The operation an issue stands for, or why it is refused (60_exceptions.md R167). DESIGN CHOICE, safe: where several
refusals apply to one issue, R167 and R168 give no order among them. The model records a failed decode first, then an
overlap, so an overlapping operation on a closed or a missing instance is refused as `overlappingRx` and not as
`connectionClosed` or `noSuchRx`, which the operation itself would answer. Log entry 6. -/
def Issue.fetch (q : Issue) : Except Refusal Instr :=
  match decode q.request with
  | .error e => .error (Refusal.ofReject e)
  | .ok i =>
    match overlapOf i q.inProgress with
    | some k => .error (.overlappingRx k)
    | none => .ok i

end Sys2Proof.Machine
end

