-- ==== Sys2Proof/Machine/Step.lean ====
section
/-! DEFINITION. One step: the oldest operation the host has issued is carried out, as one atomic step
(20_memory.md R57). -/

namespace Sys2Proof.Machine

open Sys2Proof

/-- With nothing issued, CORE stays as it is (70_reset_and_hazards.md R188 gives it no halt; log entry 4). An operation
that is refused takes no step (00_scope.md R12). -/
def step (s : State) : Host.Outcome State Fault Refusal :=
  match s.program with
  | [] => .next s
  | q :: rest =>
    match q.fetch with
    | .error r => .refused r
    | .ok i => exec i { s with program := rest }

/-- `s` with the operation of a table word issued as the very next one, nothing else in progress. Log entry 4. -/
def State.withFetchWord (s : State) (nbits w : Nat) : State :=
  { s with program := { request := requestOfWord nbits w, inProgress := [] } :: s.program }

end Sys2Proof.Machine
end

