-- ==== Sys2Proof/Safety.lean ====
section
/-! DEFINITION. What every reachable state satisfies (10_state.md R27) and what a host can observe
(10_state.md R33, 70_reset_and_hazards.md R188). -/

namespace Sys2Proof.Machine

open Sys2Proof

/-- The invariants of an RX instance: the four of 10_state.md R27, the counter's width (R26), and that a closed
instance holds no partial frame (42_receiver.md R140, 70_reset_and_hazards.md R180). -/
abbrev Rx.Inv (w : Nat) (r : Rx) : Prop :=
  (r.phase = .awaitingStart → r.buf = [] ∧ r.len = 0x00#8 ∧ r.acc = 0x00#8) ∧
  (r.phase = .awaitingLength → r.buf = [] ∧ r.len = 0x00#8 ∧ r.acc = 0xAA#8) ∧
  (r.phase = .accumulatingPayload →
    4 ≤ r.len.toNat ∧ r.buf.length < r.len.toNat - 3 ∧ r.acc = foldXor ([0xAA#8, r.len] ++ r.buf)) ∧
  (r.phase = .awaitingChecksum →
    3 ≤ r.len.toNat ∧ r.buf.length = r.len.toNat - 3 ∧ r.acc = foldXor ([0xAA#8, r.len] ++ r.buf)) ∧
  r.count < 2 ^ w ∧
  (r.isOpen = false → r.phase = .awaitingStart)

/-- Every RX instance keeps its invariants. -/
abbrev State.Inv (s : State) : Prop := ∀ r ∈ s.rx, r.Inv s.counterWidth

/-- An instance that has an open connection and waits for a start byte, with `n` frames counted. -/
abbrev Rx.ready (n : Nat) : Rx :=
  { isOpen := true, phase := .awaitingStart, len := 0x00#8, buf := [], acc := 0x00#8, count := n }

/-- What a run shows the host: the results in order, then `open` and `count` of every instance
(70_reset_and_hazards.md R188). `phase`, `len`, `buf` and `acc` are hidden (10_state.md R33). -/
structure Observation where
  results : List Result
  status : List (Bool × Nat)
  deriving DecidableEq, Repr

/-- What the host can observe of a state (10_state.md R33, 70_reset_and_hazards.md R188). -/
def State.observe (s : State) : Observation :=
  { results := s.results, status := s.rx.map (fun r => (r.isOpen, r.count)) }

end Sys2Proof.Machine
end

