-- ==== Sys2Proof/Certificates/Slice0/Obligations.lean ====
section
/-! DEFINITION. Statements for the provers. Each formalises what a rule of spec/ says CORE does; where a clause is the
spec's own decision or inference, or a choice of the model, the docstring says which. CORE has no memory (20_memory.md
R50), so no frame speaks of it: a next state written as an update of `s` leaves every field not named, and every other
RX instance, as it was. -/

open Sys2Proof Sys2Proof.Machine

/-! ### Decoding -/

/-- Words written out from 30_encoding.md R76 to R79 (frames) and R84, R86 (op codes, the spec's decision D2) decode to
the operations they stand for. The FRAME rows as operations are the model's choice, log entry 1. -/
def Obligations.SampleWordsDecode : Prop :=
  decode (.frame 0 [0xAA#8, 0x05#8, 0x05#8, 0x64#8, 0xCE#8]) = .ok (.servoSet 0 0x64#8 0xCE#8) ∧
  decode (.frame 1 [0xAA#8, 0x11#8, 0x0A#8, 0x07#8, 0x00#8, 0x00#8, 0x03#8, 0xE8#8, 0xFF#8, 0xFF#8, 0xFE#8, 0x0C#8,
      0x07#8, 0x5B#8, 0xCD#8, 0x15#8, 0x2B#8]) =
    .ok (.stepperMoveImm 1 0x07#8 0x000003E8#32 0xFFFFFE0C#32 0x075BCD15#32 0x2B#8) ∧
  decode (.frame 0 [0xAA#8, 0x04#8, 0x0C#8, 0xA2#8]) = .ok (.execDeferred 0) ∧
  decode (.hostOp 0b0001#4 (.bytes [0x05#8, 0x64#8])) = .ok (.encFrame [0x05#8, 0x64#8]) ∧
  decode (.hostOp 0b0100#4 (.stepper 1 100 (-50) 2000)) = .ok (.bldStepDef 1 100 (-50) 2000) ∧
  decode (.hostOp 0b0110#4 (.rxByte 0 0xAA#8)) = .ok (.rxByte 0 0xAA#8) ∧
  decode (.hostOp 0b1001#4 (.rx 0)) = .ok (.connClose 0) ∧
  decode (.hostOp 0b1011#4 .nothing) = .ok (.reservedAB 1#1 .nothing)

/-- Decoding the encoding of an operation gives it back, with every operand at every value. The requests' form is the
model's own (log entry 7). -/
def Obligations.DecodeOfEncode : Prop :=
  ∀ i : Instr, decode (encode i) = .ok i

/-- A request that decodes is the encoding of what it decodes to, so no two requests share a reading and no bit of one
is dropped. The requests' form is the model's own (log entry 7). -/
def Obligations.EncodeOfDecode : Prop :=
  ∀ (q : Request) (i : Instr), decode q = .ok i → encode i = q

/-- A request that decodes agrees with the opcode-table row of its operation, and with no row of another pattern. -/
def Obligations.RowsAreDisjoint : Prop :=
  ∀ (q : Request) (i j : Instr), decode q = .ok i →
    i.row.matches q = true ∧ (j.row.matches q = true → j.row = i.row)

/-! ### The step -/

/-- A step carries out the oldest operation issued: it is `exec` of the decoded operation, the operation taken off the
host's program and nothing else changed around it, unless it is an RX operation on an instance where another is still
in progress (70_reset_and_hazards.md R184). -/
def Obligations.StepRunsDecodedOperation : Prop :=
  ∀ (s : State) (q : Issue) (rest : List Issue) (i : Instr), s.program = q :: rest → decode q.request = .ok i →
    (∀ k, i.rxTarget = some k → k ∉ q.inProgress) →
    step s = exec i { s with program := rest }

/-- A word of the opcode table that decodes is run by the very next step once it is issued (log entries 4 and 9). -/
def Obligations.IssuedWordRunsNext : Prop :=
  ∀ (s : State) (nbits w : Nat) (i : Instr), decodeTableWord nbits w = some i →
    step (s.withFetchWord nbits w) = exec i s

/-- A request that is no operation, and an RX operation that overlaps another on its instance, take no step
(60_exceptions.md R167, 70_reset_and_hazards.md R184). How an overlap and a request stand in the state is the model's
choice, and so is it that an overlap is recorded before a closed or missing instance (log entries 6 and 7). -/
def Obligations.StepRefusesWhatHasNoMeaning : Prop :=
  ∀ (s : State) (q : Issue) (rest : List Issue), s.program = q :: rest →
    (∀ e, decode q.request = .error e → step s = .refused (Refusal.ofReject e)) ∧
    (∀ i k, decode q.request = .ok i → i.rxTarget = some k → k ∈ q.inProgress → step s = .refused (.overlappingRx k))

/-- With nothing issued the machine stays as it is: the model's choice, log entry 4. -/
def Obligations.StepWaitsForTheHost : Prop :=
  ∀ s : State, s.program = [] → step s = .next s

/-- The reserved op codes `0xA` to `0xF` are refused whatever travels beside them (30_encoding.md R86, decision D2). -/
def Obligations.ReservedOpCodesAreRefused : Prop :=
  (∀ (x : BitVec 1) (args : Operands) (s : State),
    exec (.reservedAB x args) s = .refused (.reservedHostOp (0b101#3 ++ x))) ∧
  (∀ (x : BitVec 2) (args : Operands) (s : State),
    exec (.reservedCF x args) s = .refused (.reservedHostOp (0b11#2 ++ x))) ∧
  (∀ (s : State) (op : BitVec 4) (args : Operands) (busy : List Nat) (rest : List Issue),
    10 ≤ op.toNat → s.program = { request := .hostOp op args, inProgress := busy } :: rest →
    step s = .refused (.reservedHostOp op))

/-! ### Reset and what every step keeps -/

/-- The power-on state (70_reset_and_hazards.md R180, the spec's decision D11), for any number of instances and any
counter width; `State.reset` is that of the parameters of log entries 2 and 3. -/
def Obligations.ResetIsPowerOn : Prop :=
  (∀ n w k : Nat, k < n →
    (State.resetWith n w).rx[k]? =
      some { isOpen := false, phase := .awaitingStart, len := 0x00#8, buf := [], acc := 0x00#8, count := 0 }) ∧
  (∀ n w : Nat, (State.resetWith n w).nConn = n ∧ (State.resetWith n w).counterWidth = w ∧
    (State.resetWith n w).results = [] ∧ (State.resetWith n w).program = []) ∧
  State.reset = State.resetWith 1 32

/-- The invariants of 10_state.md R27 hold at power-on (the spec's inference). -/
def Obligations.ResetKeepsReceiverInvariants : Prop :=
  (∀ n w : Nat, (State.resetWith n w).Inv) ∧ State.reset.Inv

/-- Every step keeps the invariants of 10_state.md R27 (the spec's inference from R131 to R141), the counter's width
and that a closed instance holds no partial frame. -/
def Obligations.StepKeepsReceiverInvariants : Prop :=
  ∀ s t : State, s.Inv → step s = .next t → t.Inv

/-- No operation writes the configuration (10_state.md R31, which names decision D7) or the host's program beyond taking
its own entry (20_memory.md R65, decision D17), and each returns exactly one result (00_scope.md R13). -/
def Obligations.StepWritesNoConfiguration : Prop :=
  ∀ s t : State, step s = .next t →
    t.counterWidth = s.counterWidth ∧ t.nConn = s.nConn ∧ t.program = s.program.tail ∧
    (s.program ≠ [] → ∃ r, t.results = s.results ++ [r])

/-- An operation leaves every RX instance it does not name as it was. Its premise is any operation, of any unit. -/
def Obligations.OtherInstancesAreUntouched : Prop :=
  ∀ (i : Instr) (s t : State) (k : Nat), exec i s = .next t → i.rxTarget ≠ some k → t.rx[k]? = s.rx[k]?

/-- Operations on different RX instances commute: whichever runs first, each returns the same result and both leave the
same state, so their interleaving cannot be observed (20_memory.md R62). -/
def Obligations.InstancesCommute : Prop :=
  ∀ (i i' : Instr) (j k : Nat) (s t u : State), i.rxTarget = some j → i'.rxTarget = some k → j ≠ k →
    exec i s = .next t → exec i' t = .next u →
    ∃ (t' u' : State) (r r' : Result), exec i' s = .next t' ∧ exec i t' = .next u' ∧
      u.results = s.results ++ [r, r'] ∧ u'.results = s.results ++ [r', r] ∧
      u' = { u with results := s.results ++ [r', r] }

/-- `open` changes only at a CONN_OPEN or CONN_CLOSE of that instance (10_state.md R21, the spec's decision D9). -/
def Obligations.OpenChangesOnlyAtConnection : Prop :=
  ∀ (i : Instr) (s t : State) (k : Nat) (r r' : Rx), exec i s = .next t → s.rx[k]? = some r → t.rx[k]? = some r' →
    r'.isOpen ≠ r.isOpen → (i = .connOpen k ∧ r'.isOpen = true) ∨ (i = .connClose k ∧ r'.isOpen = false)

/-- The packet counter counts completed frames modulo 2^COUNTER_WIDTH, is set to 0 by CONN_OPEN and is written by nothing
else (10_state.md R26; the wrap is decision D7, its survival of CONN_CLOSE decision D10). -/
def Obligations.CounterCountsCompletedFrames : Prop :=
  ∀ (i : Instr) (s t : State) (k : Nat) (r r' : Rx), r.count < 2 ^ s.counterWidth →
    exec i s = .next t → s.rx[k]? = some r → t.rx[k]? = some r' →
    (i.rxTarget ≠ some k → r'.count = r.count) ∧
    (i = .connOpen k → r'.count = 0) ∧
    (∀ es, i.rxTarget = some k → i ≠ .connOpen k → t.results = s.results ++ [.events es] →
      r'.count = (r.count + completedCount es) % 2 ^ s.counterWidth)

/-- What the host cannot observe of an instance, only bytes given to it can show: from two states that look the same to
the host, an operation that delivers no bytes leads to states that look the same (10_state.md R33, decision D8). -/
def Obligations.HiddenStateShownOnlyByBytes : Prop :=
  ∀ (i : Instr) (s s' t : State), s.observe = s'.observe →
    (i.rxTarget = none ∨ ∃ k, i = .connOpen k ∨ i = .connClose k) →
    exec i s = .next t → ∃ t', exec i s' = .next t' ∧ t'.observe = t.observe

/-! ### CHK -/

/-- `fold_xor` (40_checksum.md R100), and that the checksum of a frame is `fold_xor` of its bytes from `start` to the
last payload byte. -/
def Obligations.FoldXorIsTheRunningXor : Prop :=
  foldXor [] = 0x00#8 ∧
  (∀ (s : List Byte) (b : Byte), foldXor (s ++ [b]) = foldXor s ^^^ b) ∧
  (∀ (a b : Byte) (i : Nat), i < 8 → (a ^^^ b).getLsbD i = (a.getLsbD i != b.getLsbD i)) ∧
  (∀ p f : List Byte, encodeFrame p = .ok f → ∃ body, f = body ++ [foldXor body] ∧ body.drop 2 = p)

/-- The algebra of `fold_xor` (40_checksum.md R102, the spec's inference): order does not matter, concatenation, a
frame XORs to zero, one changed byte always shows, changes that XOR to zero never do. -/
def Obligations.FoldXorAlgebra : Prop :=
  (∀ s t : List Byte, s.Perm t → foldXor s = foldXor t) ∧
  (∀ s t : List Byte, foldXor (s ++ t) = foldXor s ^^^ foldXor t) ∧
  (∀ s : List Byte, foldXor (s ++ [foldXor s]) = 0x00#8) ∧
  (∀ (s : List Byte) (i : Nat) (b b' : Byte), s[i]? = some b → b ≠ b' →
    foldXor (s.set i b') = foldXor s ^^^ b ^^^ b' ∧ foldXor (s.set i b') ≠ foldXor s) ∧
  (∀ s d : List Byte, s.length = d.length → foldXor d = 0x00#8 →
    foldXor (List.zipWith (fun a b => a ^^^ b) s d) = foldXor s)

/-- CHK_COMPUTE always returns `Ok` of the checksum and writes nothing (40_checksum.md R101; the operation itself is the
spec's decision D2). -/
def Obligations.ChkComputeReturnsChecksum : Prop :=
  (∀ (bs : List Byte) (s : State),
    exec (.chkCompute bs) s = .next { s with results := s.results ++ [.okByte (foldXor bs)] }) ∧
  foldXor [0xAA#8, 0x05#8, 0x05#8, 0x64#8] = 0xCE#8

/-! ### ENC -/

/-- A frame's layout (30_encoding.md R70): every payload of at most 252 bytes gives a frame of 3 to 255 bytes with the
start byte, its own total length, the payload and the XOR of all earlier bytes in their places. -/
def Obligations.FrameLayout : Prop :=
  ∀ p : List Byte, p.length ≤ 252 → ∃ f : List Byte, encodeFrame p = .ok f ∧
    3 ≤ f.length ∧ f.length ≤ 255 ∧
    f[0]? = some 0xAA#8 ∧
    (f[1]?).map BitVec.toNat = some f.length ∧
    (f.drop 2).take (f.length - 3) = p ∧
    f[f.length - 1]? = some (foldXor (f.take (f.length - 1)))

/-- ENC_FRAME returns the frame of 41_encoder.md R110's pseudocode, its length 3 more than the payload's (R110's own
corner case says 4 more, against its pseudocode and R70: log entry 14), or `PayloadTooLarge`; it writes nothing. -/
def Obligations.EncFrameReturnsFrame : Prop :=
  ∀ (p : List Byte) (s : State),
    (p.length ≤ 252 →
      exec (.encFrame p) s = .next { s with results := s.results ++ [.okBytes
        ([0xAA#8, BitVec.ofNat 8 (p.length + 3)] ++ p ++
          [foldXor ([0xAA#8, BitVec.ofNat 8 (p.length + 3)] ++ p)])] } ∧
      ([0xAA#8, BitVec.ofNat 8 (p.length + 3)] ++ p ++
          [foldXor ([0xAA#8, BitVec.ofNat 8 (p.length + 3)] ++ p)]).length = p.length + 3) ∧
    (252 < p.length →
      exec (.encFrame p) s = .next { s with results := s.results ++ [.err .payloadTooLarge] })

/-- `PayloadTooLarge` (60_exceptions.md R161): raised by ENC_FRAME alone, exactly for a payload of more than 252 bytes,
with no bytes produced and nothing recorded; its status code is 1 (decision D6). -/
def Obligations.PayloadTooLargeExactlyAbove252 : Prop :=
  (∀ (p : List Byte) (s : State), 252 < p.length →
    exec (.encFrame p) s = .next { s with results := s.results ++ [.err .payloadTooLarge] }) ∧
  (∀ (i : Instr) (s t : State), exec i s = .next t → t.results = s.results ++ [.err .payloadTooLarge] →
    ∃ p, i = .encFrame p ∧ 252 < p.length) ∧
  (Result.err .payloadTooLarge).status = some 1

/-- `NumericOverflow` (60_exceptions.md R162; that stepper fields fail and do not saturate is decisions D4, D5, the code
D6): returned exactly by the two stepper builders when an operand is out of range. -/
def Obligations.NumericOverflowExactlyOutOfRange : Prop :=
  (∀ (i : Instr) (s t : State), exec i s = .next t →
    (t.results = s.results ++ [.err .numericOverflow] ↔
      ∃ id accel vel pos : Int, (i = .bldStepImm id accel vel pos ∨ i = .bldStepDef id accel vel pos) ∧
        (id < -255 ∨ 255 < id ∨ accel < -2147483648 ∨ 2147483647 < accel ∨ vel < -2147483648 ∨ 2147483647 < vel ∨
          pos < -2147483648 ∨ 2147483647 < pos))) ∧
  (Result.err .numericOverflow).status = some 2

/-- BLD_SERVO always returns the descriptor and the angle saturated to a byte (41_encoder.md R111, R115; the meaning of
`clamp` is the spec's general knowledge, 93_implementation_defined.md I15); it writes nothing. -/
def Obligations.BldServoSaturates : Prop :=
  ∀ (angle : Int) (s : State), ∃ b : Byte, (b.toNat : Int) = min (max angle 0) 255 ∧
    exec (.bldServo angle) s = .next { s with results := s.results ++ [.okBytes [0x05#8, b]] }

/-- BLD_STEP_IMM on operands in range returns its 14 bytes (41_encoder.md R112; two's complement is the spec's general
knowledge I7); out of range it returns `NumericOverflow` (decisions D4, D5). It writes nothing. -/
def Obligations.BldStepImmReturnsPayload : Prop :=
  ∀ (id accel vel pos : Int) (s : State),
    (-255 ≤ id ∧ id ≤ 255 → -2147483648 ≤ accel ∧ accel ≤ 2147483647 → -2147483648 ≤ vel ∧ vel ≤ 2147483647 →
      -2147483648 ≤ pos ∧ pos ≤ 2147483647 →
      ∃ (b : Byte) (a v p : Word32), b.toNat = id.natAbs ∧ a.toInt = accel ∧ v.toInt = vel ∧ p.toInt = pos ∧
        exec (.bldStepImm id accel vel pos) s = .next { s with results := s.results ++
          [.okBytes ([0x0A#8, b] ++ be32Bytes a ++ be32Bytes v ++ be32Bytes p)] }) ∧
    ((id < -255 ∨ 255 < id ∨ accel < -2147483648 ∨ 2147483647 < accel ∨ vel < -2147483648 ∨ 2147483647 < vel ∨
        pos < -2147483648 ∨ 2147483647 < pos) →
      exec (.bldStepImm id accel vel pos) s = .next { s with results := s.results ++ [.err .numericOverflow] })

/-- BLD_STEP_DEF: as BLD_STEP_IMM with first byte `0x0B` (41_encoder.md R113; D4, D5, I7). It writes nothing. -/
def Obligations.BldStepDefReturnsPayload : Prop :=
  ∀ (id accel vel pos : Int) (s : State),
    (-255 ≤ id ∧ id ≤ 255 → -2147483648 ≤ accel ∧ accel ≤ 2147483647 → -2147483648 ≤ vel ∧ vel ≤ 2147483647 →
      -2147483648 ≤ pos ∧ pos ≤ 2147483647 →
      ∃ (b : Byte) (a v p : Word32), b.toNat = id.natAbs ∧ a.toInt = accel ∧ v.toInt = vel ∧ p.toInt = pos ∧
        exec (.bldStepDef id accel vel pos) s = .next { s with results := s.results ++
          [.okBytes ([0x0B#8, b] ++ be32Bytes a ++ be32Bytes v ++ be32Bytes p)] }) ∧
    ((id < -255 ∨ 255 < id ∨ accel < -2147483648 ∨ 2147483647 < accel ∨ vel < -2147483648 ∨ 2147483647 < vel ∨
        pos < -2147483648 ∨ 2147483647 < pos) →
      exec (.bldStepDef id accel vel pos) s = .next { s with results := s.results ++ [.err .numericOverflow] })

/-- BLD_EXEC_DEF always returns `[0C]`, which frames to `AA 04 0C A2` (41_encoder.md R114); it writes nothing. -/
def Obligations.BldExecDefReturnsPayload : Prop :=
  (∀ s : State, exec .bldExecDef s = .next { s with results := s.results ++ [.okBytes [0x0C#8]] }) ∧
  encodeFrame [0x0C#8] = .ok [0xAA#8, 0x04#8, 0x0C#8, 0xA2#8]

/-- The acceleration, velocity and position fields stand most significant byte first in the payload either stepper
builder returns, at offsets 2, 6 and 10 (20_memory.md R52; that negative values are in two's complement is the spec's
general knowledge I7). -/
def Obligations.StepperFieldsAreBigEndian : Prop :=
  ∀ (id accel vel pos : Int) (s t : State) (payload : List Byte),
    (exec (.bldStepImm id accel vel pos) s = .next t ∨ exec (.bldStepDef id accel vel pos) s = .next t) →
    t.results = s.results ++ [.okBytes payload] →
    payload.length = 14 ∧
    ∀ off v, (off, v) ∈ [(2, accel), (6, vel), (10, pos)] →
      ((payload.drop off).take 4).map BitVec.toNat =
        [(v % 4294967296).toNat / 16777216, (v % 4294967296).toNat / 65536 % 256,
          (v % 4294967296).toNat / 256 % 256, (v % 4294967296).toNat % 256]

/-- What a builder returns ENC_FRAME frames: the payload is 1, 2 or 14 bytes and never too large, and a builder's error
is the error of the whole (41_encoder.md R119, the spec's inference). -/
def Obligations.BuiltPayloadsAlwaysFrame : Prop :=
  ∀ built : Except EncError (List Byte),
    ((∃ angle, built = buildServo angle) ∨ built = buildExecDef ∨
      (∃ d id accel vel pos, built = buildStepper d id accel vel pos)) →
    (∀ p, built = .ok p → (p.length = 1 ∨ p.length = 2 ∨ p.length = 14) ∧
      ∃ f, sendFrame built = .ok f ∧ f.length = p.length + 3) ∧
    (∀ e, built = .error e → e = .numericOverflow ∧ sendFrame built = .error .numericOverflow)

/-- The frames the builders and ENC_FRAME make are the command frames of the opcode table, with the checksums of
40_checksum.md R104 (the spec's inference). -/
def Obligations.BuiltFramesAreCommandFrames : Prop :=
  (∀ (k : Nat) (angle : Int) (f : List Byte), sendFrame (buildServo angle) = .ok f →
    decode (.frame k f) = .ok (.servoSet k (angleByte angle) (0xAA#8 ^^^ angleByte angle))) ∧
  (∀ (k : Nat) (id accel vel pos : Int) (f : List Byte), sendFrame (buildStepper 0x0A#8 id accel vel pos) = .ok f →
    decode (.frame k f) = .ok (.stepperMoveImm k (BitVec.ofNat 8 id.natAbs) (tc32 accel) (tc32 vel) (tc32 pos)
      (0xB1#8 ^^^ BitVec.ofNat 8 id.natAbs ^^^
        foldXor (be32Bytes (tc32 accel) ++ be32Bytes (tc32 vel) ++ be32Bytes (tc32 pos))))) ∧
  (∀ (k : Nat) (id accel vel pos : Int) (f : List Byte), sendFrame (buildStepper 0x0B#8 id accel vel pos) = .ok f →
    decode (.frame k f) = .ok (.stepperMoveDef k (BitVec.ofNat 8 id.natAbs) (tc32 accel) (tc32 vel) (tc32 pos)
      (0xB0#8 ^^^ BitVec.ofNat 8 id.natAbs ^^^
        foldXor (be32Bytes (tc32 accel) ++ be32Bytes (tc32 vel) ++ be32Bytes (tc32 pos))))) ∧
  (∀ (k : Nat) (f : List Byte), sendFrame buildExecDef = .ok f → decode (.frame k f) = .ok (.execDeferred k))

/-- An ENC operation that raises an error returns it in place of a result, with no bytes and nothing else changed, and
ENC_FRAME never truncates its payload nor wraps its length to avoid one (60_exceptions.md R160). BLD_SERVO and
BLD_EXEC_DEF raise none (`BldServoSaturates`, `BldExecDefReturnsPayload`). -/
def Obligations.RaisedErrorIsReturned : Prop :=
  ∀ s : State,
    (∀ (p : List Byte) (e : EncError), encodeFrame p = .error e →
      exec (.encFrame p) s = .next { s with results := s.results ++ [.err e] }) ∧
    (∀ (id accel vel pos : Int) (e : EncError), buildStepper 0x0A#8 id accel vel pos = .error e →
      exec (.bldStepImm id accel vel pos) s = .next { s with results := s.results ++ [.err e] }) ∧
    (∀ (id accel vel pos : Int) (e : EncError), buildStepper 0x0B#8 id accel vel pos = .error e →
      exec (.bldStepDef id accel vel pos) s = .next { s with results := s.results ++ [.err e] }) ∧
    (∀ (p f : List Byte) (t : State), exec (.encFrame p) s = .next t → t.results = s.results ++ [.okBytes f] →
      (f.drop 2).take p.length = p ∧ f[1]?.map BitVec.toNat = some f.length)

/-- Whatever operation returned an encode error wrote nothing else, and it was no RX operation (derived from
60_exceptions.md R160 with the results of 00_scope.md R13; that the error is returned is `RaisedErrorIsReturned`). -/
def Obligations.EncodeErrorsWriteNothing : Prop :=
  ∀ (i : Instr) (s t : State) (e : EncError), exec i s = .next t → t.results = s.results ++ [.err e] →
    t = { s with results := s.results ++ [.err e] } ∧ i.rxTarget = none

/-- ENC (and CHK) hold no state: each operation's result depends on its operands alone, and nothing it does can be seen
by a later operation of any unit (10_state.md R20). -/
def Obligations.EncOperationsLeaveNoTrace : Prop :=
  ∀ i : Instr, i.rxTarget = none → (∀ x args, i ≠ .reservedAB x args) → (∀ x args, i ≠ .reservedCF x args) →
    ∃ r : Result, ∀ s : State, ∃ t : State, exec i s = .next t ∧ t.results = s.results ++ [r] ∧
      ∀ j : Instr,
        (∀ x, exec j s = .refused x → exec j t = .refused x) ∧
        (∀ u, exec j s = .next u → ∃ (v : State) (r' : Result), exec j t = .next v ∧ v.rx = u.rx ∧
          u.results = s.results ++ [r'] ∧ v.results = t.results ++ [r'])

/-! ### RX: one byte -/

/-- RX_BYTE in `AwaitingStart` (42_receiver.md R131): `0xAA` opens a frame, every other byte is discarded with no event
and no change, and so is any run of such bytes; in a reachable state `buf` and `len` are empty and 0 there. -/
def Obligations.RxByteScansForStart : Prop :=
  ∀ (s : State) (k : Nat) (r : Rx), s.rx[k]? = some r → r.isOpen = true → r.phase = .awaitingStart →
    exec (.rxByte k 0xAA#8) s = .next { s with
      rx := s.rx.set k { r with phase := .awaitingLength, acc := 0xAA#8 }
      results := s.results ++ [.events []] } ∧
    (∀ b : Byte, b ≠ 0xAA#8 → exec (.rxByte k b) s = .next { s with results := s.results ++ [.events []] }) ∧
    (∀ bs : List Byte, (∀ b ∈ bs, b ≠ 0xAA#8) →
      exec (.rxChunk k bs) s = .next { s with results := s.results ++ [.events []] }) ∧
    (s.Inv → r.buf = [] ∧ r.len = 0x00#8)

/-- RX_BYTE in `AwaitingLength`, both arms (42_receiver.md R132, R133; the cleared fields are decision D12, the direct
way to `AwaitingChecksum` for a length of 3 decision D13). -/
def Obligations.RxByteTakesLength : Prop :=
  ∀ (s : State) (k : Nat) (r : Rx) (b : Byte), s.rx[k]? = some r → r.isOpen = true → r.phase = .awaitingLength →
    (b.toNat < 3 → exec (.rxByte k b) s = .next { s with
      rx := s.rx.set k { r with phase := .awaitingStart, len := 0x00#8, buf := [], acc := 0x00#8 }
      results := s.results ++ [.events [.malformedFrame .lengthTooSmall]] }) ∧
    (b.toNat = 3 → exec (.rxByte k b) s = .next { s with
      rx := s.rx.set k { r with phase := .awaitingChecksum, len := b, acc := r.acc ^^^ b }
      results := s.results ++ [.events []] }) ∧
    (3 < b.toNat → exec (.rxByte k b) s = .next { s with
      rx := s.rx.set k { r with phase := .accumulatingPayload, len := b, acc := r.acc ^^^ b }
      results := s.results ++ [.events []] })

/-- RX_BYTE in `AccumulatingPayload` (42_receiver.md R134): the byte joins the buffer and the running XOR whatever its
value, with no event, and the last one due moves on to the checksum. -/
def Obligations.RxByteAccumulatesPayload : Prop :=
  ∀ (s : State) (k : Nat) (r : Rx) (b : Byte), s.rx[k]? = some r → r.isOpen = true → r.phase = .accumulatingPayload →
    (r.buf.length + 1 = r.len.toNat - 3 → exec (.rxByte k b) s = .next { s with
      rx := s.rx.set k { r with phase := .awaitingChecksum, buf := r.buf ++ [b], acc := r.acc ^^^ b }
      results := s.results ++ [.events []] }) ∧
    (r.buf.length + 1 ≠ r.len.toNat - 3 → exec (.rxByte k b) s = .next { s with
      rx := s.rx.set k { r with phase := .accumulatingPayload, buf := r.buf ++ [b], acc := r.acc ^^^ b }
      results := s.results ++ [.events []] })

/-- The reassembly buffer never holds more than `len - 3` bytes while a frame is received, hence never more than its
capacity of 252, whatever operation runs in a reachable state (42_receiver.md R134, the spec's inference). -/
def Obligations.BufferStaysWithinCapacity : Prop :=
  ∀ (i : Instr) (s t : State) (r : Rx), s.Inv → exec i s = .next t → r ∈ t.rx →
    r.buf.length ≤ r.len.toNat - 3 ∧ r.buf.length ≤ 252

/-- RX_BYTE in `AwaitingChecksum`, both arms (42_receiver.md R135, R136; the wrap is decision D7, the count in the event
D8, the cleared fields D12, the consumed mismatching byte D28). -/
def Obligations.RxByteChecksChecksum : Prop :=
  ∀ (s : State) (k : Nat) (r : Rx) (b : Byte), s.rx[k]? = some r → r.isOpen = true → r.phase = .awaitingChecksum →
    (b = r.acc → exec (.rxByte k b) s = .next { s with
      rx := s.rx.set k { r with phase := .awaitingStart, len := 0x00#8, buf := [], acc := 0x00#8,
                                count := (r.count + 1) % 2 ^ s.counterWidth }
      results := s.results ++ [.events [.completedFrame r.buf ((r.count + 1) % 2 ^ s.counterWidth)]] }) ∧
    (b ≠ r.acc → exec (.rxByte k b) s = .next { s with
      rx := s.rx.set k { r with phase := .awaitingStart, len := 0x00#8, buf := [], acc := 0x00#8 }
      results := s.results ++ [.events [.malformedFrame .checksumFailed]] })

/-- `MalformedFrame(LengthTooSmall)` (60_exceptions.md R163): exactly a length byte 0, 1 or 2 taken in `AwaitingLength`
gives it, by RX_BYTE and by RX_CHUNK alike; its kind code is 2 (decision D6); the receiver is back in `AwaitingStart` with its count unchanged. -/
def Obligations.LengthTooSmallIsReported : Prop :=
  (∀ (s : State) (k : Nat) (r : Rx) (b : Byte), s.rx[k]? = some r → r.isOpen = true → r.phase = .awaitingLength →
    b.toNat < 3 → ∃ r' : Rx, r'.phase = .awaitingStart ∧ r'.count = r.count ∧ r'.isOpen = true ∧
      exec (.rxByte k b) s = .next { s with
        rx := s.rx.set k r', results := s.results ++ [.events [.malformedFrame .lengthTooSmall]] } ∧
      exec (.rxChunk k [b]) s = exec (.rxByte k b) s) ∧
  (∀ (s t : State) (k : Nat) (b : Byte) (es : List Event), exec (.rxByte k b) s = .next t →
    t.results = s.results ++ [.events es] → .malformedFrame .lengthTooSmall ∈ es →
    b.toNat < 3 ∧ ∃ r, s.rx[k]? = some r ∧ r.phase = .awaitingLength) ∧
  (Event.malformedFrame .lengthTooSmall).code = 2

/-- `MalformedFrame(ChecksumFailed)` (60_exceptions.md R164): exactly a checksum byte other than `fold_xor` of the frame's
earlier bytes gives it in a state the machine can reach; no frame is emitted, the receiver is back in `AwaitingStart`
with its count unchanged; its kind code is 3 (decision D6). -/
def Obligations.ChecksumFailedIsReported : Prop :=
  (∀ (s : State) (k : Nat) (r : Rx) (b : Byte), s.Inv → s.rx[k]? = some r → r.isOpen = true →
    r.phase = .awaitingChecksum → b ≠ foldXor ([0xAA#8, r.len] ++ r.buf) →
    ∃ r' : Rx, r'.phase = .awaitingStart ∧ r'.count = r.count ∧ r'.isOpen = true ∧
      exec (.rxByte k b) s = .next { s with
        rx := s.rx.set k r', results := s.results ++ [.events [.malformedFrame .checksumFailed]] } ∧
      exec (.rxChunk k [b]) s = exec (.rxByte k b) s) ∧
  (∀ (s t : State) (k : Nat) (b : Byte) (es : List Event), s.Inv → exec (.rxByte k b) s = .next t →
    t.results = s.results ++ [.events es] → .malformedFrame .checksumFailed ∈ es →
    ∃ r, s.rx[k]? = some r ∧ r.phase = .awaitingChecksum ∧ b ≠ foldXor ([0xAA#8, r.len] ++ r.buf)) ∧
  (Event.malformedFrame .checksumFailed).code = 3

/-! ### RX: chunks -/

/-- RX_CHUNK (42_receiver.md R137): always completes on an open instance; the empty chunk changes nothing; a longer one
is RX_BYTE of its first byte then RX_CHUNK of the rest, in one operation with the events in byte order; it is refused
while the connection is closed. -/
def Obligations.RxChunkIsBytesInOrder : Prop :=
  (∀ (s : State) (k : Nat) (r : Rx) (bs : List Byte), s.rx[k]? = some r → r.isOpen = true →
    ∃ (t : State) (es : List Event), exec (.rxChunk k bs) s = .next t ∧ t.results = s.results ++ [.events es]) ∧
  (∀ (s : State) (k : Nat) (r : Rx), s.rx[k]? = some r → r.isOpen = true →
    exec (.rxChunk k []) s = .next { s with results := s.results ++ [.events []] }) ∧
  (∀ (s t u : State) (k : Nat) (b : Byte) (bs : List Byte) (es es' : List Event),
    exec (.rxByte k b) s = .next t → t.results = s.results ++ [.events es] →
    exec (.rxChunk k bs) t = .next u → u.results = t.results ++ [.events es'] →
    exec (.rxChunk k (b :: bs)) s = .next { u with results := s.results ++ [.events (es ++ es')] }) ∧
  (∀ (s : State) (k : Nat) (r : Rx) (bs : List Byte), s.rx[k]? = some r → r.isOpen = false →
    exec (.rxChunk k bs) s = .refused (.connectionClosed k))

/-- Chunk-boundary independence (42_receiver.md R138, the spec's inference): two chunks one after the other leave the
state of the one chunk they make together, and their events in order are its events. -/
def Obligations.ChunkBoundariesDoNotMatter : Prop :=
  ∀ (s : State) (k : Nat) (r : Rx) (bs cs : List Byte), s.rx[k]? = some r → r.isOpen = true →
    ∃ (t u : State) (es fs : List Event),
      exec (.rxChunk k bs) s = .next t ∧ t.results = s.results ++ [.events es] ∧
      exec (.rxChunk k cs) t = .next u ∧ u.results = t.results ++ [.events fs] ∧
      exec (.rxChunk k (bs ++ cs)) s = .next { u with results := s.results ++ [.events (es ++ fs)] }

/-- Events per byte (42_receiver.md R139, the spec's inference): a byte causes at most one event, and only a length byte
below 3 or a checksum byte causes one; a chunk of n bytes returns at most n. -/
def Obligations.AtMostOneEventPerByte : Prop :=
  (∀ (s t : State) (k : Nat) (r : Rx) (b : Byte) (es : List Event), s.rx[k]? = some r →
    exec (.rxByte k b) s = .next t → t.results = s.results ++ [.events es] →
    es.length ≤ 1 ∧ (es ≠ [] → (r.phase = .awaitingLength ∧ b.toNat < 3) ∨ r.phase = .awaitingChecksum)) ∧
  (∀ (s t : State) (k : Nat) (bs : List Byte) (es : List Event),
    exec (.rxChunk k bs) s = .next t → t.results = s.results ++ [.events es] → es.length ≤ bs.length)

/-- Bytes to a closed instance are refused, whichever operation brings them (42_receiver.md R130, R137 and
60_exceptions.md R167, the spec's decision D9). -/
def Obligations.ClosedInstanceRefusesBytes : Prop :=
  ∀ (s : State) (k : Nat) (r : Rx), s.rx[k]? = some r → r.isOpen = false →
    ∀ i : Instr, i.rxTarget = some k → i ≠ .connOpen k → i ≠ .connClose k →
      exec i s = .refused (.connectionClosed k)

/-- An RX operation on an instance that CORE does not have is refused: the model's choice, log entry 8. -/
def Obligations.MissingInstanceIsRefused : Prop :=
  ∀ (s : State) (i : Instr) (k : Nat), i.rxTarget = some k → i.wellFormed s.nConn = false →
    exec i s = .refused (.noSuchRx k)

/-- On an open instance every RX operation returns: none waits, whatever the phase (42_receiver.md R142,
60_exceptions.md R166). On a closed one CONN_OPEN and CONN_CLOSE do. -/
def Obligations.RxOperationsAlwaysReturn : Prop :=
  ∀ (s : State) (i : Instr) (k : Nat) (r : Rx), i.rxTarget = some k → s.rx[k]? = some r →
    (r.isOpen = true ∨ i = .connOpen k ∨ i = .connClose k) →
    ∃ (t : State) (r' : Rx) (res : Result), exec i s = .next t ∧
      t = { s with rx := s.rx.set k r', results := s.results ++ [res] } ∧
      (res = .okUnit ∨ ∃ es, res = .events es)

/-! ### RX: frames -/

/-- Round trip (42_receiver.md R145, the spec's inference; the counter's value and wrap are decisions D7, D8): the frame
ENC_FRAME makes of any payload of at most 252 bytes, given to an open instance awaiting a start byte, completes with
exactly that payload. -/
def Obligations.FrameRoundTrip : Prop :=
  ∀ p : List Byte, p.length ≤ 252 → ∃ f : List Byte,
    (∀ s : State, exec (.encFrame p) s = .next { s with results := s.results ++ [.okBytes f] }) ∧
    ∀ (s : State) (k n : Nat), s.rx[k]? = some (Rx.ready n) →
      exec (.rxChunk k f) s = .next { s with
        rx := s.rx.set k (Rx.ready ((n + 1) % 2 ^ s.counterWidth))
        results := s.results ++ [.events [.completedFrame p ((n + 1) % 2 ^ s.counterWidth)]] }

/-- A stream of frames with noise before each, where no noise byte is `0xAA`, completes every frame in order and nothing
else (42_receiver.md R131 to R137; counts by decisions D7, D8). -/
def Obligations.StreamOfFramesIsRecovered : Prop :=
  ∀ (segs : List (List Byte × List Byte)) (s : State) (k n : Nat),
    (∀ q ∈ segs, (∀ b ∈ q.1, b ≠ 0xAA#8) ∧ q.2.length ≤ 252) →
    s.rx[k]? = some (Rx.ready n) → n < 2 ^ s.counterWidth →
    exec (.rxChunk k (segs.flatMap (fun q => q.1 ++ (frameBody q.2 ++ [foldXor (frameBody q.2)])))) s = .next { s with
      rx := s.rx.set k (Rx.ready ((n + segs.length) % 2 ^ s.counterWidth))
      results := s.results ++ [.events (segs.mapIdx
        (fun i q => .completedFrame q.2 ((n + i + 1) % 2 ^ s.counterWidth)))] }

/-- A frame with one wrong payload byte, or a wrong checksum byte, gives exactly `ChecksumFailed` (42_receiver.md R146,
the spec's inference): the receiver is back awaiting a start byte, its count unchanged. -/
def Obligations.CorruptedByteFailsChecksum : Prop :=
  ∀ (p f : List Byte) (j : Nat) (b b' : Byte) (s : State) (k n : Nat), encodeFrame p = .ok f →
    2 ≤ j → f[j]? = some b → b' ≠ b → s.rx[k]? = some (Rx.ready n) →
    exec (.rxChunk k (f.set j b')) s = .next { s with
      results := s.results ++ [.events [.malformedFrame .checksumFailed]] }

/-- A frame with a wrong start byte gives no event of its own (42_receiver.md R146, the spec's inference): what follows
is received as if it had come alone, so its bytes up to the next `0xAA` are noise. -/
def Obligations.CorruptedStartIsNoise : Prop :=
  ∀ (p f : List Byte) (b : Byte) (s : State) (k n : Nat), encodeFrame p = .ok f → b ≠ 0xAA#8 →
    s.rx[k]? = some (Rx.ready n) →
    exec (.rxChunk k (f.set 0 b)) s = exec (.rxChunk k (f.drop 1)) s ∧
    ((∀ c ∈ f.drop 1, c ≠ 0xAA#8) →
      exec (.rxChunk k (f.set 0 b)) s = .next { s with results := s.results ++ [.events []] })

/-- A frame with a wrong length byte (42_receiver.md R146, the spec's inference), `L'` in place of the frame's length
`N`: below 3 the first two bytes give `LengthTooSmall`; above `N` nothing happens within the frame and `L' - N` more
bytes are due; from 3 up to `N` the byte at offset `L' - 1` is taken as the checksum, and a chance match completes a
wrong frame. -/
def Obligations.CorruptedLengthIsFollowed : Prop :=
  ∀ (p f : List Byte) (l : Byte) (s : State) (k n : Nat), encodeFrame p = .ok f → l.toNat ≠ f.length →
    s.rx[k]? = some (Rx.ready n) →
    (l.toNat < 3 →
      exec (.rxChunk k ((f.set 1 l).take 2)) s = .next { s with
        results := s.results ++ [.events [.malformedFrame .lengthTooSmall]] }) ∧
    (f.length < l.toNat → ∃ r' : Rx, r'.isOpen = true ∧ r'.len = l ∧ r'.buf = f.drop 2 ∧ r'.count = n ∧
      (r'.phase = if l.toNat = f.length + 1 then .awaitingChecksum else .accumulatingPayload) ∧
      exec (.rxChunk k (f.set 1 l)) s = .next { s with
        rx := s.rx.set k r', results := s.results ++ [.events []] }) ∧
    (3 ≤ l.toNat → l.toNat < f.length → ∀ c, f[l.toNat - 1]? = some c →
      (c ≠ foldXor ((f.set 1 l).take (l.toNat - 1)) →
        exec (.rxChunk k ((f.set 1 l).take l.toNat)) s = .next { s with
          results := s.results ++ [.events [.malformedFrame .checksumFailed]] }) ∧
      (c = foldXor ((f.set 1 l).take (l.toNat - 1)) →
        exec (.rxChunk k ((f.set 1 l).take l.toNat)) s = .next { s with
          rx := s.rx.set k (Rx.ready ((n + 1) % 2 ^ s.counterWidth))
          results := s.results ++ [.events
            [.completedFrame ((f.take (l.toNat - 1)).drop 2) ((n + 1) % 2 ^ s.counterWidth)]] }))

/-- No backtracking (42_receiver.md R144, 70_reset_and_hazards.md R186, the spec's inference): after a stray `0xAA` the
next `0xAA` is a length of 170, and up to 167 bytes after it, whatever they are, are swallowed without an event. -/
def Obligations.StrayStartSwallowsBytes : Prop :=
  ∀ (bs : List Byte) (s : State) (k n : Nat), bs.length ≤ 167 → s.rx[k]? = some (Rx.ready n) →
    exec (.rxChunk k ([0xAA#8, 0xAA#8] ++ bs)) s = .next { s with
      rx := s.rx.set k { isOpen := true
                         phase := if bs.length = 167 then .awaitingChecksum else .accumulatingPayload
                         len := 0xAA#8, buf := bs, acc := foldXor bs, count := n }
      results := s.results ++ [.events []] }

/-! ### RX: connection -/

/-- Connection reset (70_reset_and_hazards.md R181): CONN_OPEN resets every field and opens; CONN_CLOSE resets every field
but the count and closes. Both return whatever the instance was doing. -/
def Obligations.ConnectionResetsReceiver : Prop :=
  ∀ (s : State) (k : Nat) (r : Rx), s.rx[k]? = some r →
    exec (.connOpen k) s = .next { s with
      rx := s.rx.set k { isOpen := true, phase := .awaitingStart, len := 0x00#8, buf := [], acc := 0x00#8, count := 0 }
      results := s.results ++ [.okUnit] } ∧
    exec (.connClose k) s = .next { s with
      rx := s.rx.set k
        { isOpen := false, phase := .awaitingStart, len := 0x00#8, buf := [], acc := 0x00#8, count := r.count }
      results := s.results ++ [.events []] }

/-! ### The command frames on the line of an instance (log entry 1) -/

/-- A command frame as an operation is the delivery of its bytes: the model's choice, log entry 1. -/
def Obligations.CommandFramesAreDelivered : Prop :=
  (∀ (k : Nat) (a c : Byte) (s : State),
    exec (.servoSet k a c) s = exec (.rxChunk k [0xAA#8, 0x05#8, 0x05#8, a, c]) s) ∧
  (∀ (k : Nat) (i : Byte) (a v p : Word32) (c : Byte) (s : State),
    exec (.stepperMoveImm k i a v p c) s =
      exec (.rxChunk k ([0xAA#8, 0x11#8, 0x0A#8, i] ++ be32Bytes a ++ be32Bytes v ++ be32Bytes p ++ [c])) s) ∧
  (∀ (k : Nat) (i : Byte) (a v p : Word32) (c : Byte) (s : State),
    exec (.stepperMoveDef k i a v p c) s =
      exec (.rxChunk k ([0xAA#8, 0x11#8, 0x0B#8, i] ++ be32Bytes a ++ be32Bytes v ++ be32Bytes p ++ [c])) s) ∧
  (∀ (k : Nat) (s : State),
    exec (.execDeferred k) s = exec (.rxChunk k [0xAA#8, 0x04#8, 0x0C#8, 0xA2#8]) s)

/-- SERVO_SET on an open instance awaiting a start byte completes with the payload `[05, angle]` when its checksum byte
is `0xAA xor angle`, and reports `ChecksumFailed` otherwise (30_encoding.md R76, 42_receiver.md R135, R136; log entry 1,
D7, D8). -/
def Obligations.ServoSetArrives : Prop :=
  ∀ (s : State) (k n : Nat) (a c : Byte), s.rx[k]? = some (Rx.ready n) →
    (c = 0xAA#8 ^^^ a → exec (.servoSet k a c) s = .next { s with
      rx := s.rx.set k (Rx.ready ((n + 1) % 2 ^ s.counterWidth))
      results := s.results ++ [.events [.completedFrame [0x05#8, a] ((n + 1) % 2 ^ s.counterWidth)]] }) ∧
    (c ≠ 0xAA#8 ^^^ a → exec (.servoSet k a c) s = .next { s with
      results := s.results ++ [.events [.malformedFrame .checksumFailed]] })

/-- The two stepper frames likewise, with checksums `0xB1 xor ...` and `0xB0 xor ...` (30_encoding.md R77, R78,
40_checksum.md R104; log entry 1, D7, D8). -/
def Obligations.StepperMovesArrive : Prop :=
  ∀ (s : State) (k n : Nat) (i : Byte) (a v p : Word32) (c : Byte), s.rx[k]? = some (Rx.ready n) →
    (c = 0xB1#8 ^^^ i ^^^ foldXor (be32Bytes a ++ be32Bytes v ++ be32Bytes p) →
      exec (.stepperMoveImm k i a v p c) s = .next { s with
        rx := s.rx.set k (Rx.ready ((n + 1) % 2 ^ s.counterWidth))
        results := s.results ++ [.events [.completedFrame
          ([0x0A#8, i] ++ be32Bytes a ++ be32Bytes v ++ be32Bytes p) ((n + 1) % 2 ^ s.counterWidth)]] }) ∧
    (c ≠ 0xB1#8 ^^^ i ^^^ foldXor (be32Bytes a ++ be32Bytes v ++ be32Bytes p) →
      exec (.stepperMoveImm k i a v p c) s = .next { s with
        results := s.results ++ [.events [.malformedFrame .checksumFailed]] }) ∧
    (c = 0xB0#8 ^^^ i ^^^ foldXor (be32Bytes a ++ be32Bytes v ++ be32Bytes p) →
      exec (.stepperMoveDef k i a v p c) s = .next { s with
        rx := s.rx.set k (Rx.ready ((n + 1) % 2 ^ s.counterWidth))
        results := s.results ++ [.events [.completedFrame
          ([0x0B#8, i] ++ be32Bytes a ++ be32Bytes v ++ be32Bytes p) ((n + 1) % 2 ^ s.counterWidth)]] }) ∧
    (c ≠ 0xB0#8 ^^^ i ^^^ foldXor (be32Bytes a ++ be32Bytes v ++ be32Bytes p) →
      exec (.stepperMoveDef k i a v p c) s = .next { s with
        results := s.results ++ [.events [.malformedFrame .checksumFailed]] })

/-- EXEC_DEFERRED on an open instance awaiting a start byte completes with the payload `[0C]` (30_encoding.md R79; log
entry 1, D7, D8). -/
def Obligations.ExecDeferredArrives : Prop :=
  ∀ (s : State) (k n : Nat), s.rx[k]? = some (Rx.ready n) →
    exec (.execDeferred k) s = .next { s with
      rx := s.rx.set k (Rx.ready ((n + 1) % 2 ^ s.counterWidth))
      results := s.results ++ [.events [.completedFrame [0x0C#8] ((n + 1) % 2 ^ s.counterWidth)]] }
end

