-- ==== Sys2Proof/Laws/State.lean ====
section
/-! SUPPORT. One lemma per field per update of the state, and the updates of an RX instance, so that no later proof
unfolds a record update. -/

namespace Sys2Proof.Machine

open Sys2Proof

section answer
variable (s : State) (r : Result) (e : EncError)

@[simp] theorem State.answer_rx : (s.answer r).rx = s.rx := rfl
@[simp] theorem State.answer_counterWidth : (s.answer r).counterWidth = s.counterWidth := rfl
@[simp] theorem State.answer_results : (s.answer r).results = s.results ++ [r] := rfl
@[simp] theorem State.answer_program : (s.answer r).program = s.program := rfl
@[simp] theorem State.answer_nConn : (s.answer r).nConn = s.nConn := rfl
@[simp] theorem State.raise_eq_answer : s.raise e = s.answer (.err e) := rfl
@[simp] theorem State.finish_ok (bs : List Byte) : s.finish (.ok bs) = s.answer (.okBytes bs) := rfl
@[simp] theorem State.finish_error : s.finish (.error e) = s.answer (.err e) := rfl

end answer

section setRx
variable (s : State) (k : Nat) (r : Rx)

@[simp] theorem State.setRx_rx : (s.setRx k r).rx = s.rx.set k r := rfl
@[simp] theorem State.setRx_counterWidth : (s.setRx k r).counterWidth = s.counterWidth := rfl
@[simp] theorem State.setRx_results : (s.setRx k r).results = s.results := rfl
@[simp] theorem State.setRx_program : (s.setRx k r).program = s.program := rfl
@[simp] theorem State.setRx_nConn : (s.setRx k r).nConn = s.nConn := by simp [State.nConn]

/-- Writing back what an instance holds changes nothing. -/
theorem State.setRx_self (h : s.rx[k]? = some r) : s.setRx k r = s := by
  obtain ⟨hk, hr⟩ := List.getElem?_eq_some_iff.mp h
  simp [State.setRx, ← hr]

end setRx

section toStart
variable (r : Rx)

@[simp] theorem Rx.toStart_isOpen : r.toStart.isOpen = r.isOpen := rfl
@[simp] theorem Rx.toStart_phase : r.toStart.phase = .awaitingStart := rfl
@[simp] theorem Rx.toStart_len : r.toStart.len = 0x00#8 := rfl
@[simp] theorem Rx.toStart_buf : r.toStart.buf = [] := rfl
@[simp] theorem Rx.toStart_acc : r.toStart.acc = 0x00#8 := rfl
@[simp] theorem Rx.toStart_count : r.toStart.count = r.count := rfl

/-- CONN_OPEN leaves nothing of what the instance held. -/
theorem Rx.opened_eq_ready : r.opened = Rx.ready 0 := rfl

@[simp] theorem Rx.closed_isOpen : r.closed.isOpen = false := rfl
@[simp] theorem Rx.closed_phase : r.closed.phase = .awaitingStart := rfl
@[simp] theorem Rx.closed_len : r.closed.len = 0x00#8 := rfl
@[simp] theorem Rx.closed_buf : r.closed.buf = [] := rfl
@[simp] theorem Rx.closed_acc : r.closed.acc = 0x00#8 := rfl
@[simp] theorem Rx.closed_count : r.closed.count = r.count := rfl

end toStart

end Sys2Proof.Machine
end

