-- ==== Sys2Proof/Laws/Ops.lean ====
section
/-! SUPPORT. What each shared operation can do, said once: the operations on an RX instance, the bytes through the phase
machine, and every operation of CORE. -/

namespace Sys2Proof.Machine

open Sys2Proof

/-! ### Operations on an instance -/

theorem onRx_of_some {k : Nat} {s : State} {r : Rx} (f : Rx → Rx × Result) (h : s.rx[k]? = some r) :
    onRx k s f = .next ((s.setRx k (f r).1).answer (f r).2) := by
  simp [onRx, h]

theorem onRx_of_none {k : Nat} {s : State} (f : Rx → Rx × Result) (h : s.rx[k]? = none) :
    onRx k s f = .refused (.noSuchRx k) := by
  simp [onRx, h]

theorem onOpenRx_of_open {k : Nat} {s : State} {r : Rx} (f : Rx → Rx × Result) (h : s.rx[k]? = some r)
    (ho : r.isOpen = true) : onOpenRx k s f = .next ((s.setRx k (f r).1).answer (f r).2) := by
  simp [onOpenRx, onRx, h, ho]

theorem onOpenRx_of_closed {k : Nat} {s : State} {r : Rx} (f : Rx → Rx × Result) (h : s.rx[k]? = some r)
    (hc : r.isOpen = false) : onOpenRx k s f = .refused (.connectionClosed k) := by
  simp [onOpenRx, h, hc]

theorem onOpenRx_of_none {k : Nat} {s : State} (f : Rx → Rx × Result) (h : s.rx[k]? = none) :
    onOpenRx k s f = .refused (.noSuchRx k) := by
  simp [onOpenRx, h]

/-- All that an operation on an instance does where it answers a next state. -/
theorem onRx_next {k : Nat} {s t : State} {f : Rx → Rx × Result} (h : onRx k s f = .next t) :
    ∃ r, s.rx[k]? = some r ∧ t = (s.setRx k (f r).1).answer (f r).2 := by
  rw [onRx] at h
  split at h
  · cases h
  · next r hr => cases h; exact ⟨r, hr, rfl⟩

/-- All that an operation that needs an open connection does where it answers a next state. -/
theorem onOpenRx_next {k : Nat} {s t : State} {f : Rx → Rx × Result} (h : onOpenRx k s f = .next t) :
    ∃ r, s.rx[k]? = some r ∧ r.isOpen = true ∧ t = (s.setRx k (f r).1).answer (f r).2 := by
  rw [onOpenRx] at h
  split at h
  · cases h
  · split at h
    · next r hr ho =>
      obtain ⟨r', hr', rfl⟩ := onRx_next h
      obtain rfl : r = r' := by simpa [hr] using hr'
      exact ⟨r, hr, ho, rfl⟩
    · cases h

/-! ### Bytes through the phase machine -/

theorem Rx.feed_nil (w : Nat) (r : Rx) : r.feed w [] = (r, []) := rfl

theorem Rx.feed_cons (w : Nat) (r : Rx) (b : Byte) (bs : List Byte) :
    r.feed w (b :: bs) =
      (((r.take w b).1.feed w bs).1, (r.take w b).2 ++ ((r.take w b).1.feed w bs).2) := rfl

/-- All that one byte does to an instance: one case per arm of 42_receiver.md R131 to R136. -/
theorem Rx.take_cases (w : Nat) (r : Rx) (b : Byte) :
    (r.phase = .awaitingStart ∧ b = Config.start ∧
      r.take w b = ({ r with phase := .awaitingLength, acc := Config.start }, [])) ∨
    (r.phase = .awaitingStart ∧ b ≠ Config.start ∧ r.take w b = (r, [])) ∨
    (r.phase = .awaitingLength ∧ b.toNat < 3 ∧ r.take w b = (r.toStart, [.malformedFrame .lengthTooSmall])) ∨
    (r.phase = .awaitingLength ∧ b.toNat = 3 ∧
      r.take w b = ({ r with len := b, acc := r.acc ^^^ b, phase := .awaitingChecksum }, [])) ∨
    (r.phase = .awaitingLength ∧ 3 < b.toNat ∧
      r.take w b = ({ r with len := b, acc := r.acc ^^^ b, phase := .accumulatingPayload }, [])) ∨
    (r.phase = .accumulatingPayload ∧ r.buf.length + 1 = r.len.toNat - 3 ∧
      r.take w b = ({ r with buf := r.buf ++ [b], acc := r.acc ^^^ b, phase := .awaitingChecksum }, [])) ∨
    (r.phase = .accumulatingPayload ∧ r.buf.length + 1 ≠ r.len.toNat - 3 ∧
      r.take w b = ({ r with buf := r.buf ++ [b], acc := r.acc ^^^ b, phase := .accumulatingPayload }, [])) ∨
    (r.phase = .awaitingChecksum ∧ b = r.acc ∧
      r.take w b = ({ r.toStart with count := r.nextCount w }, [.completedFrame r.buf (r.nextCount w)])) ∨
    (r.phase = .awaitingChecksum ∧ b ≠ r.acc ∧ r.take w b = (r.toStart, [.malformedFrame .checksumFailed])) := by
  cases hp : r.phase
  · by_cases hb : b = Config.start <;> simp [Rx.take, Rx.takeStart, hp, hb]
  · rcases Nat.lt_trichotomy b.toNat 3 with hb | hb | hb
    · simp [Rx.take, Rx.takeLength, Rx.malformed, Config.minLen, hp, hb]
    · simp [Rx.take, Rx.takeLength, Config.minLen, hp, hb]
    · simp [Rx.take, Rx.takeLength, Config.minLen, hp, hb, Nat.not_lt.mpr hb.le, hb.ne']
  · by_cases hb : r.buf.length + 1 = r.len.toNat - 3 <;>
      simp [Rx.take, Rx.takePayload, Config.overhead, hp, hb]
  · by_cases hb : b = r.acc <;> simp [Rx.take, Rx.takeChecksum, Rx.malformed, hp, hb]

/-- A byte never opens or closes the connection. -/
theorem Rx.take_isOpen (w : Nat) (r : Rx) (b : Byte) : (r.take w b).1.isOpen = r.isOpen := by
  rcases r.take_cases w b with ⟨-, -, h⟩ | ⟨-, -, h⟩ | ⟨-, -, h⟩ | ⟨-, -, h⟩ | ⟨-, -, h⟩ | ⟨-, -, h⟩ | ⟨-, -, h⟩ |
    ⟨-, -, h⟩ | ⟨-, -, h⟩ <;> rw [h] <;> rfl

/-- Nor does any number of bytes. -/
theorem Rx.feed_isOpen (w : Nat) (r : Rx) (bs : List Byte) : (r.feed w bs).1.isOpen = r.isOpen := by
  induction bs generalizing r with
  | nil => rfl
  | cons b bs ih => rw [Rx.feed_cons, ih, Rx.take_isOpen]

/-! ### Every operation -/

/-- All that an operation does where it answers a next state: ENC and CHK only answer; RX writes the one instance the
operation names, then answers. -/
theorem exec_next {i : Instr} {s t : State} (h : exec i s = .next t) :
    (i.rxTarget = none ∧ ∃ res, t = s.answer res) ∨
    (∃ k r r' res, i.rxTarget = some k ∧ s.rx[k]? = some r ∧ t = (s.setRx k r').answer res) := by
  have onOpen : ∀ {k : Nat} {f : Rx → Rx × Result}, i.rxTarget = some k → onOpenRx k s f = .next t →
      ∃ k r r' res, i.rxTarget = some k ∧ s.rx[k]? = some r ∧ t = (s.setRx k r').answer res := by
    intro k f hk hn
    obtain ⟨r, hr, -, rfl⟩ := onOpenRx_next hn
    exact ⟨k, r, _, _, hk, hr, rfl⟩
  have on : ∀ {k : Nat} {f : Rx → Rx × Result}, i.rxTarget = some k → onRx k s f = .next t →
      ∃ k r r' res, i.rxTarget = some k ∧ s.rx[k]? = some r ∧ t = (s.setRx k r').answer res := by
    intro k f hk hn
    obtain ⟨r, hr, rfl⟩ := onRx_next hn
    exact ⟨k, r, _, _, hk, hr, rfl⟩
  have finish : ∀ {c : Except EncError (List Byte)}, .next (s.finish c) = (.next t : Host.Outcome State Fault Refusal) →
      ∃ res, t = s.answer res := by
    intro c hc
    cases c <;> cases hc <;> exact ⟨_, rfl⟩
  cases i with
  | servoSet => exact .inr (onOpen rfl h)
  | stepperMoveImm => exact .inr (onOpen rfl h)
  | stepperMoveDef => exact .inr (onOpen rfl h)
  | execDeferred => exact .inr (onOpen rfl h)
  | chkCompute => cases h; exact .inl ⟨rfl, _, rfl⟩
  | encFrame => exact .inl ⟨rfl, finish h⟩
  | bldServo => exact .inl ⟨rfl, finish h⟩
  | bldStepImm => exact .inl ⟨rfl, finish h⟩
  | bldStepDef => exact .inl ⟨rfl, finish h⟩
  | bldExecDef => exact .inl ⟨rfl, finish h⟩
  | rxByte => exact .inr (onOpen rfl h)
  | rxChunk => exact .inr (onOpen rfl h)
  | connOpen => exact .inr (on rfl h)
  | connClose => exact .inr (on rfl h)
  | reservedAB => cases h
  | reservedCF => cases h

/-- All that a step does where it answers a next state: nothing was issued, or the oldest issue was run. -/
theorem step_next {s t : State} (h : step s = .next t) :
    (s.program = [] ∧ t = s) ∨
    (∃ q rest i, s.program = q :: rest ∧ q.fetch = .ok i ∧ exec i { s with program := rest } = .next t) := by
  rw [step] at h
  split at h
  · next hp => cases h; exact .inl ⟨hp, rfl⟩
  · next q rest hp =>
    split at h
    · cases h
    · next i hq => exact .inr ⟨q, rest, i, hp, hq, h⟩

/-! ### Encodings and conversions -/

/-- The four bytes of a `be32` field, joined as R80 says, are the pattern they came from. -/
theorem be32Join_be32Bytes (t : Word32) :
    be32Join (t.extractLsb' 24 8) (t.extractLsb' 16 8) (t.extractLsb' 8 8) (t.extractLsb' 0 8) = t := by
  apply BitVec.eq_of_toNat_eq
  have := t.isLt
  simp only [be32Join]
  show BitVec.toNat (_ ++ _) = _
  rw [BitVec.toNat_append, BitVec.toNat_append, BitVec.toNat_append]
  simp only [BitVec.extractLsb'_toNat, Nat.shiftRight_eq_div_pow]
  rw [← Nat.shiftLeft_add_eq_or_of_lt, ← Nat.shiftLeft_add_eq_or_of_lt, ← Nat.shiftLeft_add_eq_or_of_lt]
  · simp only [Nat.shiftLeft_eq]
    omega
  all_goals omega

/-- Where the stepper id converts, it is its absolute value, unchanged. -/
theorem idByte_ok {id : Int} {b : Byte} (h : idByte id = .ok b) : b.toNat = id.natAbs := by
  rw [idByte] at h
  split at h
  · cases h
  · cases h
    rw [BitVec.toNat_ofNat]
    omega

/-- Where a 32-bit field converts, the pattern's signed value is the operand, unchanged. -/
theorem be32_ok {v : Int} {bs : List Byte} (h : be32 v = .ok bs) : bs = be32Bytes (tc32 v) ∧ (tc32 v).toInt = v := by
  rw [be32] at h
  split at h
  · cases h
  · next hv =>
    cases h
    refine ⟨rfl, ?_⟩
    simp only [Config.intMin, Config.intMax] at hv
    rw [tc32, BitVec.toInt_ofInt]
    rw [Int.bmod_eq_of_le] <;> omega

end Sys2Proof.Machine
end

