-- ==== Sys2Proof/Laws/PerInstr.lean ====
section
/-! SUPPORT. A statement about every operation as syntax, one lemma per constructor: the word the encoder gives an
operation agrees with the operation's own row of spec/opcode_table.json. -/

namespace Sys2Proof.Laws.RowOfEncoding

open Sys2Proof

/-- The encoding of an operation agrees with its row of the opcode table. -/
def Statement (i : Instr) : Prop := i.row.matches (encode i) = true

/-- A number split at bit `k` meets a mask that covers none of its low `k` bits by its high part alone. -/
theorem and_shifted_mask (n m k : Nat) : n &&& (m <<< k) = ((n >>> k) &&& m) <<< k := by
  apply Nat.eq_of_testBit_eq
  intro j
  by_cases h : k ≤ j <;> simp [Nat.testBit_shiftLeft, Nat.testBit_shiftRight, h]

/-- Bytes below a leading group are less than what the group is scaled by. -/
theorem beNumber_lt (bs : List Byte) : beNumber bs < 256 ^ bs.length := by
  induction bs with
  | nil => simp [beNumber]
  | cons b bs ih =>
    have hb := b.isLt
    simp only [beNumber, List.length_cons, Nat.pow_succ]
    nlinarith

/-- The pattern test of a FRAME row whose mask covers exactly the first three bytes. -/
theorem beNumber_and_mask (a b c : Byte) (bs : List Byte) :
    beNumber (a :: b :: c :: bs) &&& (0xFFFFFF <<< (8 * bs.length)) = beNumber [a, b, c] <<< (8 * bs.length) := by
  have ha := a.isLt
  have hb := b.isLt
  have hc := c.isLt
  have hp : 2 ^ (8 * bs.length) = 256 ^ bs.length := by rw [Nat.pow_mul]
  have hlt := beNumber_lt bs
  have hd : beNumber (a :: b :: c :: bs) >>> (8 * bs.length) = beNumber [a, b, c] := by
    rw [Nat.shiftRight_eq_div_pow, hp]
    have : beNumber (a :: b :: c :: bs) = beNumber bs + 256 ^ bs.length * beNumber [a, b, c] := by
      simp only [beNumber, List.length_cons, List.length_nil, Nat.pow_succ, Nat.pow_zero]
      ring
    rw [this, Nat.add_mul_div_left _ _ (Nat.pos_of_ne_zero (by positivity)), Nat.div_eq_of_lt hlt, Nat.zero_add]
  have hm : beNumber [a, b, c] &&& 0xFFFFFF = beNumber [a, b, c] := by
    have h24 := Nat.and_two_pow_sub_one_eq_mod (beNumber [a, b, c]) 24
    have hbn := beNumber_lt [a, b, c]
    norm_num at h24 hbn
    rw [h24, Nat.mod_eq_of_lt hbn]
  rw [and_shifted_mask, hd, hm]

/-- A FRAME row whose mask covers exactly the first three bytes. -/
theorem frame_matches (k : Nat) (a b c : Byte) (bs : List Byte) (r : Row) (hf : r.format = .frame)
    (hn : (bs.length + 3) * 8 = r.nbits) (hm : r.mask = 0xFFFFFF <<< (8 * bs.length))
    (hp : r.pattern = beNumber [a, b, c] <<< (8 * bs.length)) :
    r.matches (.frame k (a :: b :: c :: bs)) = true := by
  simp only [Row.matches, hf, hm, hp, beNumber_and_mask, List.length_cons, hn, beq_self_eq_true, Bool.and_self]

theorem servoSet (k : Nat) (a c : Byte) : Statement (.servoSet k a c) :=
  frame_matches k _ _ _ [a, c] _ rfl rfl rfl rfl

theorem stepperMoveImm (k : Nat) (i : Byte) (a v p : Word32) (c : Byte) :
    Statement (.stepperMoveImm k i a v p c) :=
  frame_matches k _ _ _ ([i] ++ be32Bytes a ++ be32Bytes v ++ be32Bytes p ++ [c]) _ rfl rfl rfl rfl

theorem stepperMoveDef (k : Nat) (i : Byte) (a v p : Word32) (c : Byte) :
    Statement (.stepperMoveDef k i a v p c) :=
  frame_matches k _ _ _ ([i] ++ be32Bytes a ++ be32Bytes v ++ be32Bytes p ++ [c]) _ rfl rfl rfl rfl

theorem execDeferred (k : Nat) : Statement (.execDeferred k) := by
  have h : Statement (.execDeferred 0) := by unfold Statement; decide
  exact h

/-- A HOSTOP row is about the op code alone. -/
theorem hostOp_matches (op : BitVec 4) (args : Operands) (r : Row) {m p : Nat} (hf : r.format = .hostOp)
    (hm : r.mask = m) (hp : r.pattern = p) (h : op.toNat &&& m = p) : r.matches (.hostOp op args) = true := by
  simp [Row.matches, hf, hm, hp, h]

theorem chkCompute (bs : List Byte) : Statement (.chkCompute bs) := hostOp_matches _ _ _ rfl rfl rfl (by simp [Instr.row])
theorem encFrame (p : List Byte) : Statement (.encFrame p) := hostOp_matches _ _ _ rfl rfl rfl (by simp [Instr.row])
theorem bldServo (a : Int) : Statement (.bldServo a) := hostOp_matches _ _ _ rfl rfl rfl (by simp [Instr.row])
theorem bldStepImm (i a v p : Int) : Statement (.bldStepImm i a v p) := hostOp_matches _ _ _ rfl rfl rfl (by simp [Instr.row])
theorem bldStepDef (i a v p : Int) : Statement (.bldStepDef i a v p) := hostOp_matches _ _ _ rfl rfl rfl (by simp [Instr.row])
theorem bldExecDef : Statement .bldExecDef := hostOp_matches _ _ _ rfl rfl rfl (by simp [Instr.row])
theorem rxByte (k : Nat) (b : Byte) : Statement (.rxByte k b) := hostOp_matches _ _ _ rfl rfl rfl (by simp [Instr.row])
theorem rxChunk (k : Nat) (bs : List Byte) : Statement (.rxChunk k bs) := hostOp_matches _ _ _ rfl rfl rfl (by simp [Instr.row])
theorem connOpen (k : Nat) : Statement (.connOpen k) := hostOp_matches _ _ _ rfl rfl rfl (by simp [Instr.row])
theorem connClose (k : Nat) : Statement (.connClose k) := hostOp_matches _ _ _ rfl rfl rfl (by simp [Instr.row])

theorem reservedAB (x : BitVec 1) (args : Operands) : Statement (.reservedAB x args) :=
  hostOp_matches _ _ _ rfl rfl rfl ((by decide : ∀ x : BitVec 1, (0b101#3 ++ x).toNat &&& 0xE = 0xA) x)

theorem reservedCF (x : BitVec 2) (args : Operands) : Statement (.reservedCF x args) :=
  hostOp_matches _ _ _ rfl rfl rfl ((by decide : ∀ x : BitVec 2, (0b11#2 ++ x).toNat &&& 0xC = 0xC) x)

end Sys2Proof.Laws.RowOfEncoding
end

