-- ==== Sys2Proof/Machine/Text.lean ====
section
/-! DEFINITION. The text form of a host operation (30_encoding.md R88, D22): one operation a line, mnemonic then
operands, byte sequences as hex listings in brackets, integers in decimal, an instance prefix on RX operations. -/

namespace Sys2Proof.Machine

open Sys2Proof

/-- One hexadecimal digit, upper case. -/
def hexDigit (n : Nat) : Char := if n < 10 then Char.ofNat (48 + n) else Char.ofNat (55 + n)

/-- A byte as two hexadecimal digits (00_scope.md R9). -/
def byteText (b : Byte) : List Char := [hexDigit (b.toNat / 16), hexDigit (b.toNat % 16)]

/-- The bytes of a listing, one space between them (00_scope.md R10). -/
def bytesText : List Byte → List Char
  | [] => []
  | [b] => byteText b
  | b :: t => byteText b ++ ' ' :: bytesText t

/-- A byte sequence in brackets. -/
def seqText (bs : List Byte) : List Char := '[' :: bytesText bs ++ [']']

/-- An integer in decimal. -/
def intText (v : Int) : List Char :=
  if v < 0 then '-' :: Nat.toDigits 10 v.natAbs else Nat.toDigits 10 v.natAbs

/-- Integers with a comma and a space between them. -/
def intsText : List Int → List Char
  | [] => []
  | [v] => intText v
  | v :: t => intText v ++ ',' :: ' ' :: intsText t

/-- The prefix that names an RX instance. -/
def rxText (k : Nat) : List Char := 'r' :: 'x' :: Nat.toDigits 10 k ++ [':', ' ']

/-- The line of a host operation. A command frame arriving is written as the RX_CHUNK of its bytes, which it is
(log entry 1); a reserved op code has no mnemonic in R88's text form. -/
def instrText : Instr → Option (List Char)
  | .servoSet k a c => some (rxText k ++ "RX_CHUNK ".toList ++ seqText (servoFrame a c))
  | .stepperMoveImm k i a v p c => some (rxText k ++ "RX_CHUNK ".toList ++ seqText (stepperFrame descStepImm i a v p c))
  | .stepperMoveDef k i a v p c => some (rxText k ++ "RX_CHUNK ".toList ++ seqText (stepperFrame descStepDef i a v p c))
  | .execDeferred k => some (rxText k ++ "RX_CHUNK ".toList ++ seqText execDeferredFrame)
  | .chkCompute bs => some ("CHK_COMPUTE ".toList ++ seqText bs)
  | .encFrame bs => some ("ENC_FRAME ".toList ++ seqText bs)
  | .bldServo v => some ("BLD_SERVO ".toList ++ intText v)
  | .bldStepImm i a v p => some ("BLD_STEP_IMM ".toList ++ intsText [i, a, v, p])
  | .bldStepDef i a v p => some ("BLD_STEP_DEF ".toList ++ intsText [i, a, v, p])
  | .bldExecDef => some "BLD_EXEC_DEF".toList
  | .rxByte k b => some (rxText k ++ "RX_BYTE ".toList ++ byteText b)
  | .rxChunk k bs => some (rxText k ++ "RX_CHUNK ".toList ++ seqText bs)
  | .connOpen k => some (rxText k ++ "CONN_OPEN".toList)
  | .connClose k => some (rxText k ++ "CONN_CLOSE".toList)
  | .reservedAB _ _ => none
  | .reservedCF _ _ => none

end Sys2Proof.Machine
end

