-- ==== Sys2Proof/Tests/Slice0.lean ====
section
/-! SUPPORT. Tests: words written out from the spec's encodings, the worked vectors of 95_test_vectors.md (each named in
its comment), one ill-formed term for each check, and for every statement with hypotheses a witness that meets them. -/

namespace Sys2Proof.Tests

open Sys2Proof Sys2Proof.Machine

/-! ### Helpers -/

/-- What an outcome returned last. -/
def lastResult : Host.Outcome State Fault Refusal → Option Result
  | .next s => s.results.getLast?
  | .fault _ => none
  | .refused _ => none

/-- The instances after an outcome. -/
def rxAfter : Host.Outcome State Fault Refusal → Option (List Rx)
  | .next s => some s.rx
  | .fault _ => none
  | .refused _ => none

/-- The refusal of an outcome. -/
def refusalOf : Host.Outcome State Fault Refusal → Option Refusal
  | .next _ => none
  | .fault _ => none
  | .refused r => some r

/-- A CORE of the given instances, its counter `w` bits wide. -/
def withRx (w : Nat) (rx : List Rx) : State := { rx := rx, counterWidth := w, results := [], program := [] }

/-- One instance, fresh in the sense of 95_test_vectors.md. -/
def fresh : State := withRx 32 [Rx.ready 0]

/-- One instance in the middle of things. -/
def inPhase (p : Phase) (len : Byte) (buf : List Byte) (acc : Byte) (n : Nat) : Rx :=
  { isOpen := true, phase := p, len := len, buf := buf, acc := acc, count := n }

/-- The events and the final instance of a chunk given to a fresh instance. -/
def feedFresh (bs : List Byte) : Option Result × Option (List Rx) :=
  (lastResult (exec (.rxChunk 0 bs) fresh), rxAfter (exec (.rxChunk 0 bs) fresh))

/-! ### Decoding: one word per constructor, written out from 30_encoding.md R76 to R79, R84, R86 -/

theorem test_decode_servoSet : decodeTableWord 40 0xAA050564CE = some (.servoSet 0 0x64#8 0xCE#8) := by decide
theorem test_decode_stepperMoveImm : decodeTableWord 136 0xAA110A01000000020000000300000004B5 =
    some (.stepperMoveImm 0 1#8 2#32 3#32 4#32 0xB5#8) := by decide
theorem test_decode_stepperMoveDef : decodeTableWord 136 0xAA110B07000003E8FFFFFE0C075BCD152A =
    some (.stepperMoveDef 0 7#8 1000#32 0xFFFFFE0C#32 123456789#32 0x2A#8) := by decide
theorem test_decode_execDeferred : decodeTableWord 32 0xAA040CA2 = some (.execDeferred 0) := by decide
theorem test_decode_chkCompute : decode (.hostOp 0b0000#4 (.bytes [0xAA#8])) = .ok (.chkCompute [0xAA#8]) := rfl
theorem test_decode_encFrame : decode (.hostOp 0b0001#4 (.bytes [0x0C#8])) = .ok (.encFrame [0x0C#8]) := rfl
theorem test_decode_bldServo : decode (.hostOp 0b0010#4 (.int 300)) = .ok (.bldServo 300) := rfl
theorem test_decode_bldStepImm :
    decode (.hostOp 0b0011#4 (.stepper 300 0 0 0)) = .ok (.bldStepImm 300 0 0 0) := rfl
theorem test_decode_bldStepDef :
    decode (.hostOp 0b0100#4 (.stepper 1 100 (-50) 2000)) = .ok (.bldStepDef 1 100 (-50) 2000) := rfl
theorem test_decode_bldExecDef : decode (.hostOp 0b0101#4 .nothing) = .ok .bldExecDef := rfl
theorem test_decode_rxByte : decode (.hostOp 0b0110#4 (.rxByte 2 0xAA#8)) = .ok (.rxByte 2 0xAA#8) := rfl
theorem test_decode_rxChunk : decode (.hostOp 0b0111#4 (.rxBytes 0 [0xFF#8])) = .ok (.rxChunk 0 [0xFF#8]) := rfl
theorem test_decode_connOpen : decode (.hostOp 0b1000#4 (.rx 0)) = .ok (.connOpen 0) := rfl
theorem test_decode_connClose : decode (.hostOp 0b1001#4 (.rx 3)) = .ok (.connClose 3) := rfl
theorem test_decode_reservedAB : decodeTableWord 8 0xB = some (.reservedAB 1#1 .nothing) := by decide
theorem test_decode_reservedCF : decodeTableWord 8 0xE = some (.reservedCF 2#2 .nothing) := by decide

/-- Rejected by name: another op's operands, a frame of another descriptor (R81), a frame with another length byte, an
EXEC_DEFERRED frame whose fixed checksum is wrong (R79), no bytes. -/
theorem test_decode_rejects :
    decode (.hostOp 0b1000#4 .nothing) = .error (.operandForm 8#4) ∧
    decode (.frame 0 [0xAA#8, 0x05#8, 0x06#8, 0x64#8, 0xCE#8]) = .error .notACommandFrame ∧
    decode (.frame 0 [0xAA#8, 0x06#8, 0x05#8, 0x64#8, 0xCE#8]) = .error .notACommandFrame ∧
    decode (.frame 0 [0xAA#8, 0x04#8, 0x0C#8, 0xA3#8]) = .error .notACommandFrame ∧
    decode (.frame 0 []) = .error .notACommandFrame ∧
    decodeTableWord 8 0x1A = none := by decide

/-! ### WellFormed smoke: the one check, refused for each operation that names an instance -/

theorem test_wellFormed_refuses_missing_instance :
    (Instr.servoSet 1 0#8 0#8).wellFormed 1 = false ∧ (Instr.stepperMoveImm 2 0#8 0#32 0#32 0#32 0#8).wellFormed 2 = false ∧
    (Instr.stepperMoveDef 1 0#8 0#32 0#32 0#32 0#8).wellFormed 1 = false ∧ (Instr.execDeferred 1).wellFormed 1 = false ∧
    (Instr.rxByte 1 0#8).wellFormed 1 = false ∧ (Instr.rxChunk 1 []).wellFormed 1 = false ∧
    (Instr.connOpen 1).wellFormed 1 = false ∧ (Instr.connClose 7).wellFormed 1 = false ∧
    (Instr.connClose 0).wellFormed 1 = true ∧ (Instr.bldExecDef).wellFormed 1 = true := by decide

/-! ### Vectors of 95_test_vectors.md -/

/-- L2.1 -/
theorem test_chk_vectors :
    foldXor [] = 0x00#8 ∧ foldXor [0xAA#8, 0x05#8, 0x05#8, 0x64#8] = 0xCE#8 ∧ foldXor [0xFF#8, 0xFF#8] = 0x00#8 ∧
    foldXor [0x01#8, 0x02#8, 0x04#8, 0x08#8, 0x10#8, 0x20#8, 0x40#8, 0x80#8] = 0xFF#8 ∧
    foldXor [0xAA#8, 0x03#8] = 0xA9#8 ∧ foldXor [0xAA#8, 0x04#8, 0x0C#8] = 0xA2#8 := by decide

/-- L1-1 through the machine -/
theorem test_chkCompute : lastResult (exec (.chkCompute [0xAA#8, 0x05#8, 0x05#8, 0x64#8]) State.reset) =
    some (.okByte 0xCE#8) := by decide

/-- L2.2: the empty payload, and a payload that holds the sentinel -/
theorem test_encFrame_small :
    lastResult (exec (.encFrame []) State.reset) = some (.okBytes [0xAA#8, 0x03#8, 0xA9#8]) ∧
    lastResult (exec (.encFrame [0xAA#8, 0xAA#8]) State.reset) =
      some (.okBytes [0xAA#8, 0x05#8, 0xAA#8, 0xAA#8, 0xAF#8]) := by decide

/-- L2.2: 252 bytes give `FF` as the length and `55` as the checksum; 253 bytes are too many. -/
theorem test_encFrame_limits :
    encodeFrame (List.replicate 252 0x00#8) =
      .ok ([0xAA#8, 0xFF#8] ++ List.replicate 252 0x00#8 ++ [0x55#8]) ∧
    encodeFrame (List.replicate 253 0x00#8) = .error .payloadTooLarge := by decide +kernel

/-- L2.3 -/
theorem test_bldServo :
    lastResult (exec (.bldServo (-7)) State.reset) = some (.okBytes [0x05#8, 0x00#8]) ∧
    lastResult (exec (.bldServo 256) State.reset) = some (.okBytes [0x05#8, 0xFF#8]) ∧
    sendFrame (buildServo 170) = .ok [0xAA#8, 0x05#8, 0x05#8, 0xAA#8, 0x00#8] := by decide

/-- L2.4: `255, -1, -2^31, 2^31-1` -/
theorem test_bldStepImm_extremes : sendFrame (buildStepper descStepImm 255 (-1) (-2147483648) 2147483647) =
    .ok [0xAA#8, 0x11#8, 0x0A#8, 0xFF#8, 0xFF#8, 0xFF#8, 0xFF#8, 0xFF#8, 0x80#8, 0x00#8, 0x00#8, 0x00#8,
      0x7F#8, 0xFF#8, 0xFF#8, 0xFF#8, 0x4E#8] := by decide

/-- L2.4: the overflow rows -/
theorem test_bldStepImm_overflow :
    lastResult (exec (.bldStepImm 256 0 0 0) State.reset) = some (.err .numericOverflow) ∧
    lastResult (exec (.bldStepImm 1 2147483648 0 0) State.reset) = some (.err .numericOverflow) ∧
    lastResult (exec (.bldStepImm 1 0 (-2147483649) 0) State.reset) = some (.err .numericOverflow) := by decide

/-- L3 P1 #1 -/
theorem test_bldStepDef : lastResult (exec (.bldStepDef 1 100 (-50) 2000) State.reset) = some (.okBytes
    [0x0B#8, 0x01#8, 0x00#8, 0x00#8, 0x00#8, 0x64#8, 0xFF#8, 0xFF#8, 0xFF#8, 0xCE#8, 0x00#8, 0x00#8, 0x07#8, 0xD0#8]) := by
  decide

/-- L2.4: `-256` and `2^31` -/
theorem test_bldStepDef_overflow :
    lastResult (exec (.bldStepDef (-256) 0 0 0) State.reset) = some (.err .numericOverflow) ∧
    lastResult (exec (.bldStepDef 1 0 0 2147483648) State.reset) = some (.err .numericOverflow) := by decide

/-- L2.5 -/
theorem test_bldExecDef : lastResult (exec .bldExecDef State.reset) = some (.okBytes [0x0C#8]) := by decide

/-- L1-6: noise, then a frame; and the stream as the source prints it -/
theorem test_rxChunk_noise_then_frame :
    feedFresh [0xFF#8, 0xFF#8, 0xAA#8, 0x05#8, 0x05#8, 0x64#8, 0xCE#8] =
      (some (.events [.completedFrame [0x05#8, 0x64#8] 1]), some [Rx.ready 1]) ∧
    feedFresh [0xFF#8, 0xFF#8, 0xAA#8, 0x05#8, 0x05#8, 0x64#8, 0xCA#8] =
      (some (.events [.malformedFrame .checksumFailed]), some [Rx.ready 0]) := by decide

/-- L1-4 as one chunk -/
theorem test_rxChunk_mixed_stream :
    feedFresh [0xFF#8, 0xAA#8, 0x05#8, 0x05#8, 0x64#8, 0xCE#8, 0xAA#8, 0x02#8, 0xAA#8, 0x04#8, 0x0C#8, 0xA2#8, 0xAA#8, 0x11#8] =
      (some (.events [.completedFrame [0x05#8, 0x64#8] 1, .malformedFrame .lengthTooSmall, .completedFrame [0x0C#8] 2]),
        some [inPhase .accumulatingPayload 0x11#8 [] 0xBB#8 2]) := by decide

/-- L2.6: a mismatching checksum byte `AA` is consumed, so the frame after it is lost (D28); and L1-5, a chance match -/
theorem test_rxChunk_resync :
    feedFresh [0xAA#8, 0x05#8, 0x05#8, 0x01#8, 0xAA#8, 0x05#8, 0x05#8, 0x64#8, 0xCE#8] =
      (some (.events [.malformedFrame .checksumFailed]), some [Rx.ready 0]) ∧
    feedFresh [0xAA#8, 0x04#8, 0x00#8, 0xAE#8, 0x00#8, 0x02#8] =
      (some (.events [.completedFrame [0x00#8] 1]), some [Rx.ready 1]) := by decide

/-- L2.6: a length of 3 goes straight to the checksum -/
theorem test_rxByte_length_three :
    rxAfter (exec (.rxByte 0 0x03#8) (withRx 32 [inPhase .awaitingLength 0x00#8 [] 0xAA#8 0])) =
      some [inPhase .awaitingChecksum 0x03#8 [] 0xA9#8 0] := by decide

/-- L2.8: bytes to a closed instance are refused -/
theorem test_rxByte_closed : refusalOf (exec (.rxByte 0 0xAA#8) State.reset) = some (.connectionClosed 0) := by decide

/-- L2.7: the counter wraps at `2^2` -/
theorem test_counter_wraps :
    lastResult (exec (.rxChunk 0 ((List.replicate 5 [0xAA#8, 0x03#8, 0xA9#8]).flatten)) (withRx 2 [Rx.ready 0])) =
      some (.events [.completedFrame [] 1, .completedFrame [] 2, .completedFrame [] 3, .completedFrame [] 0,
        .completedFrame [] 1]) := by decide

/-- L2.8: CONN_OPEN on an instance in the middle of a frame, count 4 -/
theorem test_connOpen :
    rxAfter (exec (.connOpen 0) (withRx 32 [inPhase .accumulatingPayload 0x11#8 [0x0A#8, 0x01#8] 0xB0#8 4])) =
      some [Rx.ready 0] ∧
    lastResult (exec (.connOpen 0) State.reset) = some .okUnit := by decide

/-- L2.8: CONN_CLOSE drops the frame and keeps the count -/
theorem test_connClose :
    rxAfter (exec (.connClose 0) (withRx 32 [inPhase .accumulatingPayload 0x05#8 [] 0xAF#8 1])) =
      some [{ Rx.powerOn with count := 1 }] ∧
    lastResult (exec (.connClose 0) fresh) = some (.events []) := by decide

/-- L2.3 and R76: the frame of angle 1 and the same with a wrong checksum, on the line of a fresh instance -/
theorem test_servoSet :
    lastResult (exec (.servoSet 0 0x01#8 0xAB#8) fresh) = some (.events [.completedFrame [0x05#8, 0x01#8] 1]) ∧
    lastResult (exec (.servoSet 0 0x01#8 0xAA#8) fresh) = some (.events [.malformedFrame .checksumFailed]) := by decide

/-- L1-2 -/
theorem test_stepperMoveImm : lastResult (exec (.stepperMoveImm 0 1#8 2#32 3#32 4#32 0xB5#8) fresh) =
    some (.events [.completedFrame
      [0x0A#8, 0x01#8, 0#8, 0#8, 0#8, 0x02#8, 0#8, 0#8, 0#8, 0x03#8, 0#8, 0#8, 0#8, 0x04#8] 1]) := by decide

/-- L2.4, first row -/
theorem test_stepperMoveDef : lastResult (exec (.stepperMoveDef 0 1#8 2#32 3#32 4#32 0xB4#8) fresh) =
    some (.events [.completedFrame
      [0x0B#8, 0x01#8, 0#8, 0#8, 0#8, 0x02#8, 0#8, 0#8, 0#8, 0x03#8, 0#8, 0#8, 0#8, 0x04#8] 1]) := by decide

/-- L2.5 -/
theorem test_execDeferred : lastResult (exec (.execDeferred 0) fresh) = some (.events [.completedFrame [0x0C#8] 1]) := by
  decide

/-- L2.9 -/
theorem test_reserved_refused :
    refusalOf (step (State.reset.withFetchWord 8 0xA)) = some (.reservedHostOp 0xA#4) ∧
    refusalOf (step (State.reset.withFetchWord 8 0xF)) = some (.reservedHostOp 0xF#4) := by decide

/-- 70_reset_and_hazards.md R183: the first step from power-on opens the connection. -/
theorem test_step_opens : rxAfter (step (State.reset.withFetchWord 8 0x8)) = some [Rx.ready 0] := by decide

/-- 30_encoding.md R88: the lines it gives as examples -/
theorem test_text :
    instrText (.encFrame [0x05#8, 0x64#8]) = some "ENC_FRAME [05 64]".toList ∧
    instrText (.bldStepImm 1 2 3 4) = some "BLD_STEP_IMM 1, 2, 3, 4".toList ∧
    instrText (.rxByte 0 0xAA#8) = some "rx0: RX_BYTE AA".toList := ⟨rfl, rfl, rfl⟩

/-- 30_encoding.md R87 and 10_state.md R22: the codes -/
theorem test_codes :
    eventCode [] = 0 ∧ eventCode [.completedFrame [] 1] = 1 ∧ (Result.okUnit).status = some 0 ∧
    Phase.awaitingChecksum.code = 0b11#2 := by decide

/-! ### Witnesses: for every statement with hypotheses, a state and operands that meet them all, clause by clause -/

/-- An issue of `q` with nothing in progress. -/
def issue (q : Request) : Issue := { request := q, inProgress := [] }

/-- A fresh instance that has been issued `q`. -/
def issued (q : Issue) : State := { fresh with program := [q] }

/-- Two instances, number 0 in the middle of a frame, number 1 closed. -/
def twoRx : State := withRx 2 [inPhase .awaitingChecksum 0x03#8 [] 0xA9#8 3, Rx.powerOn]

theorem witness_EncodeOfDecode :
    decode (.frame 3 [0xAA#8, 0x05#8, 0x05#8, 0xFF#8, 0x00#8]) = .ok (.servoSet 3 0xFF#8 0x00#8) ∧
    decode (.hostOp 0xA#4 (.int 7)) = .ok (.reservedAB 0#1 (.int 7)) ∧
    decode (.hostOp 0xF#4 .nothing) = .ok (.reservedCF 3#2 .nothing) := ⟨rfl, rfl, rfl⟩

theorem witness_RowsAreDisjoint :
    decode (.hostOp 0x9#4 (.rx 0)) = .ok (.connClose 0) ∧
    (Instr.connClose 5).row.matches (.hostOp 0x9#4 (.rx 0)) = true := by decide

theorem witness_StepRunsDecodedOperation :
    (issued (issue (.hostOp 0x6#4 (.rxByte 0 0xAA#8)))).program = issue (.hostOp 0x6#4 (.rxByte 0 0xAA#8)) :: [] ∧
    decode (issue (.hostOp 0x6#4 (.rxByte 0 0xAA#8))).request = .ok (.rxByte 0 0xAA#8) ∧
    (∀ k, (Instr.rxByte 0 0xAA#8).rxTarget = some k → k ∉ (issue (.hostOp 0x6#4 (.rxByte 0 0xAA#8))).inProgress) :=
  ⟨rfl, rfl, fun _ _ => by simp [issue]⟩

theorem witness_IssuedWordRunsNext : decodeTableWord 8 0x8 = some (.connOpen 0) := by decide

/-- Both clauses: operands of another form, and an overlap on instance 0. -/
theorem witness_StepRefusesWhatHasNoMeaning :
    decode (.hostOp 0x6#4 .nothing) = .error (.operandForm 6#4) ∧
    decode (.hostOp 0x7#4 (.rxBytes 0 [])) = .ok (.rxChunk 0 []) ∧ (Instr.rxChunk 0 []).rxTarget = some 0 ∧
    (0 : Nat) ∈ ({ request := .hostOp 0x7#4 (.rxBytes 0 []), inProgress := [0] } : Issue).inProgress :=
  ⟨rfl, rfl, rfl, by simp⟩

theorem witness_StepWaitsForTheHost : State.reset.program = [] := rfl

/-- Both ends of the reserved range. -/
theorem witness_ReservedOpCodesAreRefused :
    10 ≤ (0xA#4).toNat ∧ 10 ≤ (0xF#4).toNat ∧
    (issued (issue (.hostOp 0xA#4 .nothing))).program = { request := .hostOp 0xA#4 .nothing, inProgress := [] } :: [] :=
  ⟨by decide, by decide, rfl⟩

theorem witness_ResetIsPowerOn : 0 < 1 ∧ (State.resetWith 3 32).rx[2]? = some Rx.powerOn := by decide

/-- A state in the middle of a frame keeps the invariants, and its step runs. -/
theorem witness_StepKeepsReceiverInvariants :
    ({ withRx 32 [inPhase .accumulatingPayload 0x05#8 [0x05#8] 0xAA#8 0] with
        program := [issue (.hostOp 0x6#4 (.rxByte 0 0x64#8))] } : State).Inv ∧
    step { withRx 32 [inPhase .accumulatingPayload 0x05#8 [0x05#8] 0xAA#8 0] with
        program := [issue (.hostOp 0x6#4 (.rxByte 0 0x64#8))] } =
      .next { withRx 32 [inPhase .awaitingChecksum 0x05#8 [0x05#8, 0x64#8] 0xCE#8 0] with results := [.events []] } :=
  ⟨by decide, rfl⟩

theorem witness_StepWritesNoConfiguration :
    step (State.reset.withFetchWord 8 0x8) = .next { withRx 32 [Rx.ready 0] with results := [.okUnit] } ∧
    (State.reset.withFetchWord 8 0x8).program ≠ [] := ⟨rfl, by decide⟩

theorem witness_OtherInstancesAreUntouched :
    exec (.connOpen 1) twoRx = .next { (twoRx.setRx 1 (Rx.ready 0)) with results := [.okUnit] } ∧
    (Instr.connOpen 1).rxTarget ≠ some 0 := ⟨rfl, by decide⟩

theorem witness_InstancesCommute :
    (Instr.rxByte 0 0xA9#8).rxTarget = some 0 ∧ (Instr.connOpen 1).rxTarget = some 1 ∧ (0 : Nat) ≠ 1 ∧
    exec (.rxByte 0 0xA9#8) twoRx = .next { twoRx with
      rx := [Rx.ready 0, Rx.powerOn], results := [.events [.completedFrame [] 0]] } ∧
    exec (.connOpen 1) { twoRx with rx := [Rx.ready 0, Rx.powerOn], results := [.events [.completedFrame [] 0]] } =
      .next { twoRx with rx := [Rx.ready 0, Rx.ready 0], results := [.events [.completedFrame [] 0], .okUnit] } :=
  ⟨rfl, rfl, by decide, rfl, rfl⟩

/-- Both disjuncts of the conclusion occur. -/
theorem witness_OpenChangesOnlyAtConnection :
    exec (.connOpen 1) twoRx = .next { (twoRx.setRx 1 (Rx.ready 0)) with results := [.okUnit] } ∧
    twoRx.rx[1]? = some Rx.powerOn ∧ (twoRx.setRx 1 (Rx.ready 0)).rx[1]? = some (Rx.ready 0) ∧
    (Rx.ready 0).isOpen ≠ Rx.powerOn.isOpen ∧
    exec (.connClose 0) fresh = .next { withRx 32 [Rx.powerOn] with results := [.events []] } ∧
    fresh.rx[0]? = some (Rx.ready 0) ∧ (withRx 32 [Rx.powerOn]).rx[0]? = some Rx.powerOn :=
  ⟨rfl, rfl, rfl, by decide, rfl, rfl, rfl⟩

/-- The third clause at the greatest count of two bits, the first for instance 1, the second for CONN_OPEN. -/
theorem witness_CounterCountsCompletedFrames :
    (inPhase .awaitingChecksum 0x03#8 [] 0xA9#8 3).count < 2 ^ twoRx.counterWidth ∧
    exec (.rxByte 0 0xA9#8) twoRx = .next { twoRx with
      rx := [Rx.ready 0, Rx.powerOn], results := [] ++ [.events [.completedFrame [] 0]] } ∧
    twoRx.rx[0]? = some (inPhase .awaitingChecksum 0x03#8 [] 0xA9#8 3) ∧
    (Instr.rxByte 0 0xA9#8).rxTarget = some 0 ∧ Instr.rxByte 0 0xA9#8 ≠ .connOpen 0 ∧
    (Instr.rxByte 0 0xA9#8).rxTarget ≠ some 1 ∧
    exec (.connOpen 0) twoRx = .next { (twoRx.setRx 0 (Rx.ready 0)) with results := [.okUnit] } :=
  ⟨by decide, rfl, rfl, rfl, by decide, by decide, rfl⟩

/-- Two states that differ in hidden fields only, and an operation of each kind. -/
theorem witness_HiddenStateShownOnlyByBytes :
    (withRx 32 [inPhase .accumulatingPayload 0x05#8 [0x05#8] 0xAA#8 7]).observe = (withRx 32 [Rx.ready 7]).observe ∧
    (Instr.bldExecDef).rxTarget = none ∧
    exec (.connClose 0) (withRx 32 [Rx.ready 7]) =
      .next { withRx 32 [{ Rx.powerOn with count := 7 }] with results := [.events []] } := ⟨rfl, rfl, rfl⟩

theorem witness_FoldXorIsTheRunningXor : encodeFrame [] = .ok ([0xAA#8, 0x03#8] ++ [0xA9#8]) ∧ 7 < 8 := ⟨rfl, by decide⟩

/-- Each clause with a hypothesis: a permutation, a changed last byte, changes that cancel. -/
theorem witness_FoldXorAlgebra :
    [0x01#8, 0x02#8].Perm [0x02#8, 0x01#8] ∧
    [0x01#8, 0x02#8][1]? = some 0x02#8 ∧ (0x02#8 : Byte) ≠ 0x82#8 ∧
    [0x01#8, 0x02#8].length = [0x80#8, 0x80#8].length ∧ foldXor [0x80#8, 0x80#8] = 0x00#8 := by decide

/-- The least and the greatest payload. -/
theorem witness_FrameLayout : ([] : List Byte).length ≤ 252 ∧ (List.replicate 252 0xAA#8).length ≤ 252 :=
  ⟨by decide, by decide +kernel⟩

/-- Both clauses at the boundary. -/
theorem witness_EncFrameReturnsFrame :
    (List.replicate 252 0xAA#8).length ≤ 252 ∧ 252 < (List.replicate 253 0x00#8).length := by
  decide +kernel

theorem witness_PayloadTooLargeExactlyAbove252 :
    252 < (List.replicate 253 0x00#8).length ∧
    exec (.encFrame (List.replicate 253 0x00#8)) fresh = .next { fresh with results := [] ++ [.err .payloadTooLarge] } :=
  ⟨by decide +kernel, by simp only [exec, execEncFrame, test_encFrame_limits.2]; rfl⟩

/-- The hypothesis, with the result on the left and on the right of the equivalence. -/
theorem witness_NumericOverflowExactlyOutOfRange :
    exec (.bldStepDef (-256) 0 0 0) fresh = .next { fresh with results := [] ++ [.err .numericOverflow] } ∧
    exec (.bldStepDef (-255) 0 0 0) fresh ≠ .next { fresh with results := [] ++ [.err .numericOverflow] } := by
  refine ⟨rfl, fun h => ?_⟩
  have h' := congrArg lastResult h
  revert h'
  decide

/-- Both clauses of each stepper builder at the boundaries. -/
theorem witness_BldStepReturnsPayload :
    ((-255 : Int) ≤ -255 ∧ (-255 : Int) ≤ 255) ∧ ((-2147483648 : Int) ≤ -2147483648 ∧ (-2147483648 : Int) ≤ 2147483647) ∧
    ((-2147483648 : Int) ≤ 2147483647 ∧ (2147483647 : Int) ≤ 2147483647) ∧
    ((255 : Int) < 256) ∧ (2147483647 : Int) < 2147483648 ∧ (-2147483649 : Int) < -2147483648 := by decide

theorem witness_StepperFieldsAreBigEndian :
    exec (.bldStepImm 1 2 (-1) 4) fresh = .next { fresh with results := [] ++ [.okBytes
      [0x0A#8, 0x01#8, 0#8, 0#8, 0#8, 2#8, 0xFF#8, 0xFF#8, 0xFF#8, 0xFF#8, 0#8, 0#8, 0#8, 4#8]] } ∧
    (2, (2 : Int)) ∈ [(2, 2), (6, -1), (10, (4 : Int))] := ⟨rfl, by decide⟩

/-- Both clauses: a payload of each length and an error. -/
theorem witness_BuiltPayloadsAlwaysFrame :
    buildServo 0 = .ok [0x05#8, 0x00#8] ∧ buildExecDef = .ok [0x0C#8] ∧
    buildStepper 0x0A#8 0 0 0 0 = .ok ([0x0A#8] ++ List.replicate 13 0x00#8) ∧
    buildStepper 0x0B#8 256 0 0 0 = .error .numericOverflow := ⟨rfl, rfl, rfl, rfl⟩

/-- Each of the four clauses. -/
theorem witness_BuiltFramesAreCommandFrames :
    sendFrame (buildServo 256) = .ok [0xAA#8, 0x05#8, 0x05#8, 0xFF#8, 0x55#8] ∧
    sendFrame (buildStepper 0x0A#8 0 0 0 0) = .ok ([0xAA#8, 0x11#8, 0x0A#8] ++ List.replicate 13 0x00#8 ++ [0xB1#8]) ∧
    sendFrame (buildStepper 0x0B#8 0 0 0 0) = .ok ([0xAA#8, 0x11#8, 0x0B#8] ++ List.replicate 13 0x00#8 ++ [0xB0#8]) ∧
    sendFrame buildExecDef = .ok [0xAA#8, 0x04#8, 0x0C#8, 0xA2#8] := by decide

/-- Each of the four clauses, the last at the largest payload. -/
theorem witness_RaisedErrorIsReturned :
    encodeFrame (List.replicate 253 0x00#8) = .error .payloadTooLarge ∧
    buildStepper 0x0A#8 256 0 0 0 = .error .numericOverflow ∧
    buildStepper 0x0B#8 1 0 2147483648 0 = .error .numericOverflow ∧
    exec (.encFrame (List.replicate 252 0x05#8)) fresh = .next { fresh with results := [] ++ [.okBytes
      ([0xAA#8, 0xFF#8] ++ List.replicate 252 0x05#8 ++ [0x55#8])] } := by
  have h : encodeFrame (List.replicate 252 0x05#8) =
      .ok ([0xAA#8, 0xFF#8] ++ List.replicate 252 0x05#8 ++ [0x55#8]) := by decide +kernel
  exact ⟨test_encFrame_limits.2, rfl, rfl, by simp only [exec, execEncFrame, h]; rfl⟩

theorem witness_EncodeErrorsWriteNothing :
    exec (.bldStepImm 256 0 0 0) fresh = .next { fresh with results := [] ++ [.err .numericOverflow] } := rfl

theorem witness_EncOperationsLeaveNoTrace :
    (Instr.bldServo 0).rxTarget = none ∧ (∀ x args, Instr.bldServo 0 ≠ .reservedAB x args) ∧
    (∀ x args, Instr.bldServo 0 ≠ .reservedCF x args) := ⟨rfl, fun _ _ => by simp, fun _ _ => by simp⟩

/-- The premises, a discarded byte next to `0xAA`, and a reachable state. -/
theorem witness_RxByteScansForStart :
    fresh.rx[0]? = some (Rx.ready 0) ∧ (Rx.ready 0).isOpen = true ∧ (Rx.ready 0).phase = .awaitingStart ∧
    (0xAB#8 : Byte) ≠ 0xAA#8 ∧ (∀ b ∈ [0x03#8, 0x05#8], b ≠ 0xAA#8) ∧ fresh.Inv := by decide

/-- The premises, and each clause at its boundary. -/
theorem witness_RxByteTakesLength :
    (withRx 32 [inPhase .awaitingLength 0#8 [] 0xAA#8 0]).rx[0]? = some (inPhase .awaitingLength 0#8 [] 0xAA#8 0) ∧
    (inPhase .awaitingLength 0#8 [] 0xAA#8 0).isOpen = true ∧
    (0x02#8).toNat < 3 ∧ (0x03#8).toNat = 3 ∧ 3 < (0x04#8).toNat ∧ 3 < (0xFF#8).toNat := by decide

/-- The last byte due, one before it, and the premises. -/
theorem witness_RxByteAccumulatesPayload :
    (inPhase .accumulatingPayload 0x04#8 [] 0xAE#8 0).buf.length + 1 = (0x04#8 : Byte).toNat - 3 ∧
    (inPhase .accumulatingPayload 0x05#8 [] 0xAF#8 0).buf.length + 1 ≠ (0x05#8 : Byte).toNat - 3 ∧
    (withRx 32 [inPhase .accumulatingPayload 0x05#8 [] 0xAF#8 0]).rx[0]? =
      some (inPhase .accumulatingPayload 0x05#8 [] 0xAF#8 0) ∧
    (inPhase .accumulatingPayload 0x05#8 [] 0xAF#8 0).isOpen = true := by decide

/-- The byte that makes the buffer of a reachable state as full as it gets. -/
theorem witness_BufferStaysWithinCapacity :
    (withRx 32 [inPhase .accumulatingPayload 0x04#8 [] 0xAE#8 0]).Inv ∧
    exec (.rxByte 0 0x0C#8) (withRx 32 [inPhase .accumulatingPayload 0x04#8 [] 0xAE#8 0]) =
      .next { withRx 32 [inPhase .awaitingChecksum 0x04#8 [0x0C#8] 0xA2#8 0] with results := [.events []] } :=
  ⟨by decide, rfl⟩

/-- Both clauses, with a reachable state. -/
theorem witness_RxByteChecksChecksum :
    twoRx.rx[0]? = some (inPhase .awaitingChecksum 0x03#8 [] 0xA9#8 3) ∧
    (inPhase .awaitingChecksum 0x03#8 [] 0xA9#8 3).isOpen = true ∧
    (0xA9#8 : Byte) = (inPhase .awaitingChecksum 0x03#8 [] 0xA9#8 3).acc ∧
    (0xAA#8 : Byte) ≠ (inPhase .awaitingChecksum 0x03#8 [] 0xA9#8 3).acc ∧ twoRx.Inv := by decide

/-- The second clause: the event occurs (the first clause's premises are those of RxByteTakesLength). -/
theorem witness_LengthTooSmallIsReported :
    exec (.rxByte 0 0x02#8) (withRx 32 [inPhase .awaitingLength 0#8 [] 0xAA#8 0]) =
      .next { fresh with results := [] ++ [.events [.malformedFrame .lengthTooSmall]] } ∧
    Event.malformedFrame .lengthTooSmall ∈ [Event.malformedFrame .lengthTooSmall] := ⟨rfl, by decide⟩

/-- Both clauses on a reachable state. -/
theorem witness_ChecksumFailedIsReported :
    twoRx.Inv ∧ (0xA8#8 : Byte) ≠ foldXor ([0xAA#8, 0x03#8] ++ []) ∧
    exec (.rxByte 0 0xA8#8) twoRx = .next { twoRx with
      rx := [Rx.ready 3, Rx.powerOn], results := [] ++ [.events [.malformedFrame .checksumFailed]] } :=
  ⟨by decide, by decide, rfl⟩

/-- The third clause: a byte, then a chunk; and a closed instance for the fourth. -/
theorem witness_RxChunkIsBytesInOrder :
    exec (.rxByte 0 0xAA#8) fresh = .next { withRx 32 [inPhase .awaitingLength 0#8 [] 0xAA#8 0] with
      results := [] ++ [.events []] } ∧
    exec (.rxChunk 0 [0x00#8]) { withRx 32 [inPhase .awaitingLength 0#8 [] 0xAA#8 0] with results := [.events []] } =
      .next { fresh with results := [.events []] ++ [.events [.malformedFrame .lengthTooSmall]] } ∧
    State.reset.rx[0]? = some Rx.powerOn ∧ Rx.powerOn.isOpen = false := ⟨rfl, rfl, rfl, rfl⟩

theorem witness_ChunkBoundariesDoNotMatter :
    fresh.rx[0]? = some (Rx.ready 0) ∧ (Rx.ready 0).isOpen = true := by decide

/-- Both clauses: a byte that causes an event, and a chunk. -/
theorem witness_AtMostOneEventPerByte :
    exec (.rxByte 0 0xA9#8) twoRx = .next { twoRx with
      rx := [Rx.ready 0, Rx.powerOn], results := [] ++ [.events [.completedFrame [] 0]] } ∧
    exec (.rxChunk 0 [0xAA#8, 0x02#8]) fresh =
      .next { fresh with results := [] ++ [.events [.malformedFrame .lengthTooSmall]] } := ⟨rfl, rfl⟩

theorem witness_ClosedInstanceRefusesBytes :
    State.reset.rx[0]? = some Rx.powerOn ∧ Rx.powerOn.isOpen = false ∧ (Instr.execDeferred 0).rxTarget = some 0 ∧
    Instr.execDeferred 0 ≠ .connOpen 0 ∧ Instr.execDeferred 0 ≠ .connClose 0 := by decide

/-- The least instance number that does not exist. -/
theorem witness_MissingInstanceIsRefused :
    (Instr.connOpen 1).rxTarget = some 1 ∧ (Instr.connOpen 1).wellFormed State.reset.nConn = false := by decide

/-- An open instance, and a closed one that CONN_OPEN and CONN_CLOSE are given. -/
theorem witness_RxOperationsAlwaysReturn :
    (Instr.rxByte 0 0x00#8).rxTarget = some 0 ∧ twoRx.rx[0]? = some (inPhase .awaitingChecksum 0x03#8 [] 0xA9#8 3) ∧
    (inPhase .awaitingChecksum 0x03#8 [] 0xA9#8 3).isOpen = true ∧
    twoRx.rx[1]? = some Rx.powerOn ∧ (Instr.connClose 1).rxTarget = some 1 := by decide

theorem witness_FrameRoundTrip :
    (List.replicate 252 0xAA#8).length ≤ 252 ∧ fresh.rx[0]? = some (Rx.ready 0) :=
  ⟨by decide +kernel, rfl⟩

theorem witness_StreamOfFramesIsRecovered :
    (∀ q ∈ [([0xFF#8, 0x05#8], [0x05#8, 0x64#8]), ([], ([] : List Byte))],
      (∀ b ∈ q.1, b ≠ (0xAA#8 : Byte)) ∧ q.2.length ≤ 252) ∧
    (withRx 2 [Rx.ready 3]).rx[0]? = some (Rx.ready 3) ∧ 3 < 2 ^ (withRx 2 [Rx.ready 3]).counterWidth := by decide

/-- The first payload byte, the last, and the checksum byte of one frame. -/
theorem witness_CorruptedByteFailsChecksum :
    encodeFrame [0x05#8, 0x64#8] = .ok [0xAA#8, 0x05#8, 0x05#8, 0x64#8, 0xCE#8] ∧ 2 ≤ 2 ∧
    [0xAA#8, 0x05#8, 0x05#8, 0x64#8, 0xCE#8][2]? = some 0x05#8 ∧ (0x85#8 : Byte) ≠ 0x05#8 ∧
    [0xAA#8, 0x05#8, 0x05#8, 0x64#8, 0xCE#8][4]? = some 0xCE#8 ∧ (0xCA#8 : Byte) ≠ 0xCE#8 ∧
    fresh.rx[0]? = some (Rx.ready 0) := by decide

theorem witness_CorruptedStartIsNoise :
    encodeFrame [0x05#8, 0x64#8] = .ok [0xAA#8, 0x05#8, 0x05#8, 0x64#8, 0xCE#8] ∧ (0xAB#8 : Byte) ≠ 0xAA#8 ∧
    (∀ c ∈ [0xAA#8, 0x05#8, 0x05#8, 0x64#8, 0xCE#8].drop 1, c ≠ (0xAA#8 : Byte)) := by decide

/-- Each clause at its boundary on the frame of length 6 of L1-5: 2, 7, 3 with a mismatch, 4 with the chance match. -/
theorem witness_CorruptedLengthIsFollowed :
    encodeFrame [0x00#8, 0xAE#8, 0x00#8] = .ok [0xAA#8, 0x06#8, 0x00#8, 0xAE#8, 0x00#8, 0x02#8] ∧
    (0x02#8).toNat < 3 ∧ 6 < (0x07#8).toNat ∧ (3 ≤ (0x03#8).toNat ∧ (0x03#8).toNat < 6) ∧
    (0x00#8 : Byte) ≠ foldXor [0xAA#8, 0x03#8] ∧
    [0xAA#8, 0x06#8, 0x00#8, 0xAE#8, 0x00#8, 0x02#8][(0x04#8).toNat - 1]? = some 0xAE#8 ∧
    (0xAE#8 : Byte) = foldXor [0xAA#8, 0x04#8, 0x00#8] := by decide

/-- The longest run that is swallowed. -/
theorem witness_StrayStartSwallowsBytes :
    (List.replicate 167 0xAA#8).length ≤ 167 ∧ fresh.rx[0]? = some (Rx.ready 0) :=
  ⟨by decide +kernel, rfl⟩

theorem witness_ConnectionResetsReceiver :
    twoRx.rx[0]? = some (inPhase .awaitingChecksum 0x03#8 [] 0xA9#8 3) ∧ twoRx.rx[1]? = some Rx.powerOn := by decide

/-- Both clauses of SERVO_SET and of each stepper frame, and the premise of EXEC_DEFERRED. -/
theorem witness_CommandFramesArrive :
    fresh.rx[0]? = some (Rx.ready 0) ∧ (0xAB#8 : Byte) = 0xAA#8 ^^^ 0x01#8 ∧ (0xAA#8 : Byte) ≠ 0xAA#8 ^^^ 0x01#8 ∧
    (0xB5#8 : Byte) = 0xB1#8 ^^^ 1#8 ^^^ foldXor (be32Bytes 2#32 ++ be32Bytes 3#32 ++ be32Bytes 4#32) ∧
    (0xB4#8 : Byte) ≠ 0xB1#8 ^^^ 1#8 ^^^ foldXor (be32Bytes 2#32 ++ be32Bytes 3#32 ++ be32Bytes 4#32) ∧
    (0xB4#8 : Byte) = 0xB0#8 ^^^ 1#8 ^^^ foldXor (be32Bytes 2#32 ++ be32Bytes 3#32 ++ be32Bytes 4#32) ∧
    (0xB5#8 : Byte) ≠ 0xB0#8 ^^^ 1#8 ^^^ foldXor (be32Bytes 2#32 ++ be32Bytes 3#32 ++ be32Bytes 4#32) := by decide

end Sys2Proof.Tests
end

section
/-! PROOFS. ENC and CHK leave no trace (10_state.md R20): what they return, and that an operation reads nothing of the
state but the RX instances and `COUNTER_WIDTH`, which an ENC or CHK operation does not write. -/

namespace Sys2Proof.Machine

open Sys2Proof

/-! ### What an ENC or CHK operation returns -/

/-- The result of an ENC operation that computes `c` (00_scope.md R13). -/
def Result.ofExcept : Except EncError (List Byte) → Result
  | .ok bs => .okBytes bs
  | .error e => .err e

theorem State.finish_eq_answer (s : State) (c : Except EncError (List Byte)) :
    s.finish c = s.answer (.ofExcept c) := by
  cases c <;> rfl

/-- An operation of ENC that computes `c` answers the same result in every state. -/
theorem finish_answers_uniformly (c : Except EncError (List Byte)) :
    ∃ res, ∀ s : State, (.next (s.finish c) : Host.Outcome State Fault Refusal) = .next (s.answer res) :=
  ⟨.ofExcept c, fun s => by rw [s.finish_eq_answer]⟩

/-- An operation of ENC or CHK only answers, and its result depends on its operands alone. -/
theorem exec_answers_uniformly {i : Instr} (hi : i.rxTarget = none) (hAB : ∀ x args, i ≠ .reservedAB x args)
    (hCF : ∀ x args, i ≠ .reservedCF x args) : ∃ res, ∀ s : State, exec i s = .next (s.answer res) := by
  cases i with
  | chkCompute bs => exact ⟨.okByte (foldXor bs), fun _ => rfl⟩
  | encFrame p => exact finish_answers_uniformly (encodeFrame p)
  | bldServo a => exact finish_answers_uniformly (buildServo a)
  | bldStepImm id a v p => exact finish_answers_uniformly (buildStepper descStepImm id a v p)
  | bldStepDef id a v p => exact finish_answers_uniformly (buildStepper descStepDef id a v p)
  | bldExecDef => exact finish_answers_uniformly buildExecDef
  | reservedAB x args => exact absurd rfl (hAB x args)
  | reservedCF x args => exact absurd rfl (hCF x args)
  | servoSet | stepperMoveImm | stepperMoveDef | execDeferred | rxByte | rxChunk | connOpen | connClose => cases hi

/-! ### What an operation reads of the state -/

/-- The outcomes `o` from `s` and `p` from `t` show the same: one refusal, or one result and the same RX instances. -/
inductive SameAnswer (s t : State) : (o p : Host.Outcome State Fault Refusal) → Prop where
  | refused (x : Refusal) : SameAnswer s t (.refused x) (.refused x)
  | next {u v : State} (res : Result) (hrx : v.rx = u.rx) (hu : u.results = s.results ++ [res])
      (hv : v.results = t.results ++ [res]) : SameAnswer s t (.next u) (.next v)

section SameAnswer
variable {s t : State}

theorem SameAnswer.refused_of_refused {p : Host.Outcome State Fault Refusal} {x : Refusal}
    (h : SameAnswer s t (.refused x) p) : p = .refused x := by
  cases h; rfl

theorem SameAnswer.next_of_next {p : Host.Outcome State Fault Refusal} {u : State} (h : SameAnswer s t (.next u) p) :
    ∃ v res, p = .next v ∧ v.rx = u.rx ∧ u.results = s.results ++ [res] ∧ v.results = t.results ++ [res] := by
  cases h with
  | next res hrx hu hv => exact ⟨_, res, rfl, hrx, hu, hv⟩

theorem SameAnswer.of_answer (hrx : t.rx = s.rx) (res : Result) :
    SameAnswer s t (.next (s.answer res)) (.next (t.answer res)) :=
  .next res hrx rfl rfl

theorem SameAnswer.of_finish (hrx : t.rx = s.rx) (c : Except EncError (List Byte)) :
    SameAnswer s t (.next (s.finish c)) (.next (t.finish c)) := by
  rw [s.finish_eq_answer, t.finish_eq_answer]
  exact .of_answer hrx _

theorem onRx_sameAnswer (hrx : t.rx = s.rx) (k : Nat) (f : Rx → Rx × Result) :
    SameAnswer s t (onRx k s f) (onRx k t f) := by
  cases hk : s.rx[k]? with
  | none =>
    rw [onRx_of_none f hk, onRx_of_none f (hrx ▸ hk)]
    exact .refused _
  | some r =>
    rw [onRx_of_some f hk, onRx_of_some f (hrx ▸ hk)]
    exact .next (f r).2 (by simp [hrx]) rfl rfl

theorem onOpenRx_sameAnswer (hrx : t.rx = s.rx) (k : Nat) (f : Rx → Rx × Result) :
    SameAnswer s t (onOpenRx k s f) (onOpenRx k t f) := by
  cases hk : s.rx[k]? with
  | none =>
    rw [onOpenRx_of_none f hk, onOpenRx_of_none f (hrx ▸ hk)]
    exact .refused _
  | some r =>
    cases ho : r.isOpen with
    | false =>
      rw [onOpenRx_of_closed f hk ho, onOpenRx_of_closed f (hrx ▸ hk) ho]
      exact .refused _
    | true =>
      rw [onOpenRx_of_open f hk ho, onOpenRx_of_open f (hrx ▸ hk) ho]
      exact .next (f r).2 (by simp [hrx]) rfl rfl

theorem deliver_sameAnswer (hrx : t.rx = s.rx) (hw : t.counterWidth = s.counterWidth) (k : Nat) (bs : List Byte) :
    SameAnswer s t (deliver k bs s) (deliver k bs t) := by
  rw [deliver, deliver, hw]
  exact onOpenRx_sameAnswer hrx k _

theorem execRxByte_sameAnswer (hrx : t.rx = s.rx) (hw : t.counterWidth = s.counterWidth) (k : Nat) (b : Byte) :
    SameAnswer s t (execRxByte k b s) (execRxByte k b t) := by
  rw [execRxByte, execRxByte, hw]
  exact onOpenRx_sameAnswer hrx k _

/-- An operation reads nothing of the state but the RX instances and `COUNTER_WIDTH`: not the results returned before
it, nor what the host has issued after it. -/
theorem exec_sameAnswer (hrx : t.rx = s.rx) (hw : t.counterWidth = s.counterWidth) (j : Instr) :
    SameAnswer s t (exec j s) (exec j t) := by
  cases j with
  | servoSet | stepperMoveImm | stepperMoveDef | execDeferred | rxChunk => exact deliver_sameAnswer hrx hw _ _
  | rxByte k b => exact execRxByte_sameAnswer hrx hw k b
  | connOpen | connClose => exact onRx_sameAnswer hrx _ _
  | chkCompute => exact .of_answer hrx _
  | encFrame | bldServo | bldStepImm | bldStepDef | bldExecDef => exact .of_finish hrx _
  | reservedAB | reservedCF => exact .refused _

end SameAnswer

/-- Settles O34: an ENC or CHK operation only adds its result, which no later operation reads. -/
theorem encOperationsLeaveNoTrace : Obligations.EncOperationsLeaveNoTrace := by
  intro i hi hAB hCF
  obtain ⟨res, hres⟩ := exec_answers_uniformly hi hAB hCF
  refine ⟨res, fun s => ⟨s.answer res, hres s, rfl, fun j => ?_⟩⟩
  have same : SameAnswer s (s.answer res) (exec j s) (exec j (s.answer res)) :=
    exec_sameAnswer (s.answer_rx res) (s.answer_counterWidth res) j
  constructor
  · intro x hx
    rw [hx] at same
    exact same.refused_of_refused
  · intro u hu
    rw [hu] at same
    exact same.next_of_next

end Sys2Proof.Machine
end

section
/-! PROOFS. Operations on different RX instances commute (20_memory.md R62): an RX operation reads and writes the one
instance it names, and both orders of two such operations make the same two writes. -/

namespace Sys2Proof.Machine

open Sys2Proof

/-! ### Writes to different instances -/

@[simp] theorem State.setRx_answer (s : State) (k : Nat) (r : Rx) (res : Result) :
    (s.answer res).setRx k r = (s.setRx k r).answer res := rfl

theorem State.setRx_comm (s : State) {j k : Nat} (hjk : j ≠ k) (r r' : Rx) :
    (s.setRx j r).setRx k r' = (s.setRx k r').setRx j r := by
  simp only [State.setRx, List.set_comm r r' hjk]

theorem State.setRx_getElem?_ne (s : State) {j k : Nat} (hjk : j ≠ k) (r : Rx) :
    (s.setRx j r).rx[k]? = s.rx[k]? :=
  List.getElem?_set_ne hjk

/-! ### What an RX operation reads -/

/-- `op` is one of the two shared operations on instance `k`, by a function of `COUNTER_WIDTH` and of nothing else of
the state. -/
inductive OperatesOn (k : Nat) (op : State → Host.Outcome State Fault Refusal) : Prop where
  /-- whether or not the connection is open (42_receiver.md R140, R141) -/
  | always (f : Nat → Rx → Rx × Result) (h : ∀ s, op s = onRx k s (f s.counterWidth))
  /-- refused while the connection is closed (42_receiver.md R130, R137) -/
  | whileOpen (f : Nat → Rx → Rx × Result) (h : ∀ s, op s = onOpenRx k s (f s.counterWidth))

theorem deliver_operatesOn (k : Nat) (bs : List Byte) : OperatesOn k (deliver k bs) :=
  .whileOpen (fun w r => ((r.feed w bs).1, .events (r.feed w bs).2)) fun _ => rfl

/-- Every operation that names an RX instance is one of the shared operations on that instance. -/
theorem exec_operatesOn {i : Instr} {k : Nat} (hi : i.rxTarget = some k) : OperatesOn k (exec i) := by
  cases i with
  | servoSet | stepperMoveImm | stepperMoveDef | execDeferred | rxChunk => cases hi; exact deliver_operatesOn k _
  | rxByte _ b => cases hi; exact .whileOpen (fun w r => ((r.take w b).1, .events (r.take w b).2)) fun _ => rfl
  | connOpen => cases hi; exact .always (fun _ r => (r.opened, .okUnit)) fun _ => rfl
  | connClose => cases hi; exact .always (fun _ r => (r.closed, .events [])) fun _ => rfl
  | chkCompute | encFrame | bldServo | bldStepImm | bldStepDef | bldExecDef | reservedAB | reservedCF => cases hi

/-- Where an RX operation answers a next state, it makes the same write and returns the same result in every state
that agrees on the instance it names and on `COUNTER_WIDTH`. -/
theorem exec_next_of_agree {i : Instr} {k : Nat} {s s' : State} (hi : i.rxTarget = some k)
    (h : exec i s = .next s') :
    ∃ r res, s' = (s.setRx k r).answer res ∧
      ∀ t : State, t.rx[k]? = s.rx[k]? → t.counterWidth = s.counterWidth →
        exec i t = .next ((t.setRx k r).answer res) := by
  cases exec_operatesOn hi with
  | always f hf =>
    rw [hf] at h
    obtain ⟨q, hq, rfl⟩ := onRx_next h
    exact ⟨_, _, rfl, fun t ht hw => by rw [hf, hw, onRx_of_some _ (ht.trans hq)]⟩
  | whileOpen f hf =>
    rw [hf] at h
    obtain ⟨q, hq, ho, rfl⟩ := onOpenRx_next h
    exact ⟨_, _, rfl, fun t ht hw => by rw [hf, hw, onOpenRx_of_open _ (ht.trans hq) ho]⟩

/-- Settles O15: neither operation reads what the other writes, and their two writes commute. -/
theorem instancesCommute : Obligations.InstancesCommute := by
  intro i i' j k s t u hi hi' hjk h h'
  obtain ⟨r, res, rfl, again⟩ := exec_next_of_agree hi h
  obtain ⟨r', res', rfl, again'⟩ := exec_next_of_agree hi' h'
  have first' : exec i' s = .next ((s.setRx k r').answer res') :=
    again' s (s.setRx_getElem?_ne hjk r).symm rfl
  have second : exec i ((s.setRx k r').answer res') = .next ((((s.setRx k r').answer res').setRx j r).answer res) :=
    again _ (s.setRx_getElem?_ne hjk.symm r') rfl
  refine ⟨_, _, res, res', first', second, ?_, ?_, ?_⟩
  · simp
  · simp
  · simp only [State.setRx_answer, s.setRx_comm hjk]
    simp [State.answer]

end Sys2Proof.Machine
end

section
/-! PROOFS. The host op codes and the frame layout of 30_encoding.md: the reserved op codes are refused (R86), and an
encoded frame has the layout of R70. -/

namespace Sys2Proof.Machine

open Sys2Proof

/-! ### Running the oldest issue -/

theorem overlapOf_eq_none {i : Instr} {busy : List Nat} (h : ∀ k, i.rxTarget = some k → k ∉ busy) :
    overlapOf i busy = none := by
  rw [overlapOf]
  split
  · rfl
  · next k hk => exact if_neg (h k hk)

/-- A request that decodes is taken up unless it overlaps another operation on its instance. -/
theorem Issue.fetch_of_decode {q : Issue} {i : Instr} (hd : decode q.request = .ok i)
    (h : ∀ k, i.rxTarget = some k → k ∉ q.inProgress) : q.fetch = .ok i := by
  simp only [Issue.fetch, hd, overlapOf_eq_none h]

theorem step_of_fetch {s : State} {q : Issue} {rest : List Issue} {i : Instr} (hp : s.program = q :: rest)
    (hq : q.fetch = .ok i) : step s = exec i { s with program := rest } := by
  simp only [step, hp, hq]

/-! ### The reserved op codes -/

/-- The op codes `0xA` to `0xF` are the patterns `101x` and `11xx` of the opcode table. -/
theorem reserved_opCode_patterns : ∀ op : BitVec 4, 10 ≤ op.toNat →
    (∃ x : BitVec 1, op = 0b101#3 ++ x) ∨ (∃ x : BitVec 2, op = 0b11#2 ++ x) := by
  decide

theorem decode_reservedAB (x : BitVec 1) (args : Operands) :
    decode (.hostOp (0b101#3 ++ x) args) = .ok (.reservedAB x args) := by
  have hx : x = 0#1 ∨ x = 1#1 := by revert x; decide
  rcases hx with rfl | rfl <;> rfl

theorem decode_reservedCF (x : BitVec 2) (args : Operands) :
    decode (.hostOp (0b11#2 ++ x) args) = .ok (.reservedCF x args) := by
  have hx : x = 0#2 ∨ x = 1#2 ∨ x = 2#2 ∨ x = 3#2 := by revert x; decide
  rcases hx with rfl | rfl | rfl | rfl <;> rfl

theorem exec_reservedAB (x : BitVec 1) (args : Operands) (s : State) :
    exec (.reservedAB x args) s = .refused (.reservedHostOp (0b101#3 ++ x)) := rfl

theorem exec_reservedCF (x : BitVec 2) (args : Operands) (s : State) :
    exec (.reservedCF x args) s = .refused (.reservedHostOp (0b11#2 ++ x)) := rfl

/-- Settles O9: an op code of 10 or more decodes to a reserved operation whatever its operands; such an operation names
no RX instance, so it never overlaps, and `exec` refuses it. -/
theorem reservedOpCodesAreRefused : Obligations.ReservedOpCodesAreRefused := by
  refine ⟨exec_reservedAB, exec_reservedCF, fun s op args busy rest hop hp => ?_⟩
  rcases reserved_opCode_patterns op hop with ⟨x, rfl⟩ | ⟨x, rfl⟩
  · rw [step_of_fetch hp (Issue.fetch_of_decode (decode_reservedAB x args) nofun), exec_reservedAB]
  · rw [step_of_fetch hp (Issue.fetch_of_decode (decode_reservedCF x args) nofun), exec_reservedCF]

/-! ### The frame of a payload -/

theorem encodeFrame_of_le {p : List Byte} (hp : p.length ≤ 252) :
    encodeFrame p = .ok (frameBody p ++ [foldXor (frameBody p)]) :=
  if_neg (Nat.not_lt.mpr hp)

@[simp] theorem frameBody_length (p : List Byte) : (frameBody p).length = p.length + 2 := rfl

@[simp] theorem frameBody_drop_two (p : List Byte) : (frameBody p).drop 2 = p := rfl

/-- The length byte holds the whole total length, which does not wrap. -/
theorem lengthByte_toNat {p : List Byte} (hp : p.length ≤ 252) :
    (BitVec.ofNat 8 (p.length + Config.overhead)).toNat = p.length + 3 := by
  rw [BitVec.toNat_ofNat, Config.overhead]
  exact Nat.mod_eq_of_lt (by omega)

/-- Settles O22: the frame is the body and one checksum byte, and the body is the start byte, the length byte and the
payload. -/
theorem frameLayout : Obligations.FrameLayout := by
  intro p hp
  have hlen (c : Byte) : (frameBody p ++ [c]).length = p.length + 3 := by simp
  refine ⟨_, encodeFrame_of_le hp, ?_, ?_, rfl, ?length, ?payload, ?checksum⟩
  · rw [hlen]; omega
  · rw [hlen]; omega
  case length =>
    rw [hlen, ← lengthByte_toNat hp]
    rfl
  case payload =>
    rw [hlen, List.drop_append_of_le_length (by simp), frameBody_drop_two]
    exact List.take_left
  case checksum =>
    have hbody : (frameBody p).length = p.length + 3 - 1 := by simp
    rw [hlen, List.take_left' hbody, ← hbody]
    exact List.getElem?_concat_length

end Sys2Proof.Machine
end

section
/-! PROOFS. The checksum (40_checksum.md): `fold_xor` byte by byte, and the frames that end in it (R100). -/

namespace Sys2Proof.Machine

open Sys2Proof

/-! ### fold_xor -/

@[simp] theorem foldXor_nil : foldXor [] = 0x00#8 := rfl

/-- One more byte at the end is one more XOR. -/
theorem foldXor_concat (s : List Byte) (b : Byte) : foldXor (s ++ [b]) = foldXor s ^^^ b :=
  List.foldl_concat _ _ b s

/-! ### The frames ENC builds -/

theorem encodeFrame_of_gt {p : List Byte} (hp : 252 < p.length) : encodeFrame p = .error .payloadTooLarge :=
  if_pos hp

/-- An encoded frame has a payload that fits, and is the frame body followed by its checksum. -/
theorem encodeFrame_eq_ok {p f : List Byte} (h : encodeFrame p = .ok f) :
    p.length ≤ 252 ∧ f = frameBody p ++ [foldXor (frameBody p)] := by
  rcases Nat.lt_or_ge 252 p.length with hp | hp
  · rw [encodeFrame_of_gt hp] at h
    cases h
  · rw [encodeFrame_of_le hp] at h
    cases h
    exact ⟨hp, rfl⟩

/-- Settles O19: `fold_xor` is a left fold, so a last byte is XORed last, and the bytes before a frame's checksum are
its body. -/
theorem foldXorIsTheRunningXor : Obligations.FoldXorIsTheRunningXor := by
  refine ⟨foldXor_nil, foldXor_concat, fun a b i _ => BitVec.getLsbD_xor, fun p f h => ?_⟩
  obtain ⟨-, rfl⟩ := encodeFrame_eq_ok h
  exact ⟨frameBody p, rfl, frameBody_drop_two p⟩

end Sys2Proof.Machine
end

section
/-! PROOFS. The builders of ENC (41_encoder.md): the execute-deferred payload and its frame (R114). -/

namespace Sys2Proof.Machine

open Sys2Proof

theorem exec_bldExecDef (s : State) : exec .bldExecDef s = .next (s.finish buildExecDef) := rfl

theorem buildExecDef_eq : buildExecDef = .ok [0x0C#8] := rfl

/-- The body of the execute-deferred frame, of total length 4. -/
theorem frameBody_execDef : frameBody [0x0C#8] = [0xAA#8, 0x04#8, 0x0C#8] := rfl

theorem foldXor_execDef : foldXor [0xAA#8, 0x04#8, 0x0C#8] = 0xA2#8 := by decide

/-- Settles O29: the builder computes one byte whatever the state, so the operation only answers it; that byte fits in
a frame, whose body folds to `A2`. -/
theorem bldExecDefReturnsPayload : Obligations.BldExecDefReturnsPayload := by
  refine ⟨fun s => ?returned, ?framed⟩
  case returned =>
    rw [exec_bldExecDef, buildExecDef_eq, State.finish_ok, State.answer]
  case framed =>
    have hfits : [0x0C#8].length ≤ 252 := by decide
    rw [encodeFrame_of_le hfits, frameBody_execDef, foldXor_execDef]
    rfl

end Sys2Proof.Machine
end

section
/-! PROOFS. The receiver byte by byte and chunk by chunk (42_receiver.md): the scan for a start byte (R131), the payload
(R134), and a chunk as its bytes in order (R137). -/

namespace Sys2Proof.Machine

open Sys2Proof

/-! ### Two writes to one instance -/

@[simp] theorem State.setRx_setRx (s : State) (k : Nat) (r r' : Rx) : (s.setRx k r).setRx k r' = s.setRx k r' := by
  simp only [State.setRx, List.set_set]

/-- What an instance holds after it was written. -/
theorem State.setRx_getElem?_self {s : State} {k : Nat} {r : Rx} (h : s.rx[k]? = some r) (r' : Rx) :
    (s.setRx k r').rx[k]? = some r' := by
  obtain ⟨hk, -⟩ := List.getElem?_eq_some_iff.mp h
  exact List.getElem?_set_self hk

/-! ### RX_BYTE and RX_CHUNK as operations on an instance -/

section operations
variable {s : State} {k : Nat} {r r' : Rx} {es : List Event}

/-- RX_BYTE on an open instance writes and returns what the phase machine makes of the byte. -/
theorem exec_rxByte_of_take {b : Byte} (hr : s.rx[k]? = some r) (ho : r.isOpen = true)
    (h : r.take s.counterWidth b = (r', es)) :
    exec (.rxByte k b) s = .next ((s.setRx k r').answer (.events es)) := by
  have hexec := onOpenRx_of_open (fun r => ((r.take s.counterWidth b).1, .events (r.take s.counterWidth b).2)) hr ho
  rw [h] at hexec
  exact hexec

/-- RX_CHUNK on an open instance writes and returns what the phase machine makes of the bytes. -/
theorem exec_rxChunk_of_feed {bs : List Byte} (hr : s.rx[k]? = some r) (ho : r.isOpen = true)
    (h : r.feed s.counterWidth bs = (r', es)) :
    exec (.rxChunk k bs) s = .next ((s.setRx k r').answer (.events es)) := by
  have hexec := onOpenRx_of_open (fun r => ((r.feed s.counterWidth bs).1, .events (r.feed s.counterWidth bs).2)) hr ho
  rw [h] at hexec
  exact hexec

/-- A byte that leaves the instance as it was only adds its events to the results. -/
theorem exec_rxByte_of_take_self {b : Byte} (hr : s.rx[k]? = some r) (ho : r.isOpen = true)
    (h : r.take s.counterWidth b = (r, es)) : exec (.rxByte k b) s = .next (s.answer (.events es)) := by
  rw [exec_rxByte_of_take hr ho h, s.setRx_self k r hr]

/-- Bytes that leave the instance as it was only add their events to the results. -/
theorem exec_rxChunk_of_feed_self {bs : List Byte} (hr : s.rx[k]? = some r) (ho : r.isOpen = true)
    (h : r.feed s.counterWidth bs = (r, es)) : exec (.rxChunk k bs) s = .next (s.answer (.events es)) := by
  rw [exec_rxChunk_of_feed hr ho h, s.setRx_self k r hr]

theorem exec_rxChunk_of_closed (bs : List Byte) (hr : s.rx[k]? = some r) (hc : r.isOpen = false) :
    exec (.rxChunk k bs) s = .refused (.connectionClosed k) :=
  onOpenRx_of_closed _ hr hc

/-- All that RX_BYTE does where it completes. -/
theorem exec_rxByte_next {b : Byte} {t : State} (h : exec (.rxByte k b) s = .next t) :
    ∃ r, s.rx[k]? = some r ∧ r.isOpen = true ∧
      t = (s.setRx k (r.take s.counterWidth b).1).answer (.events (r.take s.counterWidth b).2) :=
  onOpenRx_next h

/-- All that RX_CHUNK does where it completes. -/
theorem exec_rxChunk_next {bs : List Byte} {t : State} (h : exec (.rxChunk k bs) s = .next t) :
    ∃ r, s.rx[k]? = some r ∧ r.isOpen = true ∧
      t = (s.setRx k (r.feed s.counterWidth bs).1).answer (.events (r.feed s.counterWidth bs).2) :=
  onOpenRx_next h

end operations

/-! ### Scanning for a start byte -/

section scan
variable {r : Rx} (w : Nat) (hp : r.phase = .awaitingStart)
include hp

theorem Rx.take_start : r.take w 0xAA#8 = ({ r with phase := .awaitingLength, acc := 0xAA#8 }, []) := by
  simpa [hp, Config.start] using r.take_cases w 0xAA#8

theorem Rx.take_noise {b : Byte} (hb : b ≠ 0xAA#8) : r.take w b = (r, []) := by
  simpa [hp, Config.start, hb] using r.take_cases w b

/-- A run of noise bytes of any length is discarded byte by byte. -/
theorem Rx.feed_noise {bs : List Byte} (hbs : ∀ b ∈ bs, b ≠ 0xAA#8) : r.feed w bs = (r, []) := by
  induction bs with
  | nil => rfl
  | cons b bs ih =>
    obtain ⟨hb, hbs⟩ := List.forall_mem_cons.mp hbs
    rw [Rx.feed_cons, Rx.take_noise w hp hb, ih hbs]
    rfl

end scan

/-- Settles O35: the scan opens a frame at `0xAA` and discards noise, one byte or a run of them, without a write; the
receiver's invariant says what `buf` and `len` are there. -/
theorem rxByteScansForStart : Obligations.RxByteScansForStart := by
  intro s k r hr ho hp
  refine ⟨?start, fun b hb => ?noise, fun bs hbs => ?run, fun hinv => ?fields⟩
  case start => exact exec_rxByte_of_take hr ho (Rx.take_start _ hp)
  case noise => exact exec_rxByte_of_take_self hr ho (Rx.take_noise _ hp hb)
  case run => exact exec_rxChunk_of_feed_self hr ho (Rx.feed_noise _ hp hbs)
  case fields =>
    obtain ⟨hstart, -⟩ := hinv r (List.mem_of_getElem? hr)
    obtain ⟨hbuf, hlen, -⟩ := hstart hp
    exact ⟨hbuf, hlen⟩

/-! ### Accumulating the payload -/

section payload
variable {r : Rx} (w : Nat) (b : Byte) (hp : r.phase = .accumulatingPayload)
include hp

theorem Rx.take_payload_last (hn : r.buf.length + 1 = r.len.toNat - 3) :
    r.take w b = ({ r with phase := .awaitingChecksum, buf := r.buf ++ [b], acc := r.acc ^^^ b }, []) := by
  simpa [hp, hn] using r.take_cases w b

theorem Rx.take_payload_more (hn : r.buf.length + 1 ≠ r.len.toNat - 3) :
    r.take w b = ({ r with phase := .accumulatingPayload, buf := r.buf ++ [b], acc := r.acc ^^^ b }, []) := by
  simpa [hp, hn] using r.take_cases w b

end payload

/-- Settles O37: every byte value joins the payload, and only the number of bytes received decides the next phase. -/
theorem rxByteAccumulatesPayload : Obligations.RxByteAccumulatesPayload := by
  intro s k r b hr ho hp
  constructor
  · intro hlast
    exact exec_rxByte_of_take hr ho (Rx.take_payload_last _ b hp hlast)
  · intro hmore
    exact exec_rxByte_of_take hr ho (Rx.take_payload_more _ b hp hmore)

/-! ### A chunk is its bytes in order -/

/-- RX_CHUNK of one byte more is RX_BYTE of it, then RX_CHUNK of the rest, with one result in place of the two. -/
theorem exec_rxChunk_cons {s t u : State} {k : Nat} {b : Byte} {bs : List Byte} {es es' : List Event}
    (hbyte : exec (.rxByte k b) s = .next t) (hes : t.results = s.results ++ [.events es])
    (hchunk : exec (.rxChunk k bs) t = .next u) (hes' : u.results = t.results ++ [.events es']) :
    exec (.rxChunk k (b :: bs)) s = .next { u with results := s.results ++ [.events (es ++ es')] } := by
  obtain ⟨r, hr, ho, rfl⟩ := exec_rxByte_next hbyte
  obtain ⟨r₁, hr₁, -, rfl⟩ := exec_rxChunk_next hchunk
  obtain rfl : (r.take s.counterWidth b).1 = r₁ := Option.some.inj ((State.setRx_getElem?_self hr _).symm.trans hr₁)
  obtain rfl : (r.take s.counterWidth b).2 = es := by simpa using hes
  obtain rfl : ((r.take s.counterWidth b).1.feed s.counterWidth bs).2 = es' := by simpa using hes'
  rw [exec_rxChunk_of_feed hr ho (r.feed_cons s.counterWidth b bs)]
  simp [State.answer]

/-- Settles O42: RX_CHUNK runs its bytes through the phase machine, which is total and recurses on the bytes. -/
theorem rxChunkIsBytesInOrder : Obligations.RxChunkIsBytesInOrder := by
  refine ⟨fun s k r bs hr ho => ?completes, fun s k r hr ho => ?empty, fun s t u k b bs es es' => ?longer,
    fun s k r bs hr hc => ?closed⟩
  case completes => exact ⟨_, _, exec_rxChunk_of_feed hr ho rfl, rfl⟩
  case empty => exact exec_rxChunk_of_feed_self hr ho (r.feed_nil s.counterWidth)
  case longer => exact exec_rxChunk_cons
  case closed => exact exec_rxChunk_of_closed bs hr hc

end Sys2Proof.Machine
end

section
/-! PROOFS. The errors of ENC (60_exceptions.md R160, R161): which operation returns which error and for what operands,
and that the error takes the place of the result. -/

namespace Sys2Proof.Machine

open Sys2Proof

/-! ### The errors of the conversions and builders -/

theorem idByte_error {id : Int} {e : EncError} (h : idByte id = .error e) : e = .numericOverflow := by
  rw [idByte] at h
  split at h <;> cases h
  rfl

theorem be32_error {v : Int} {e : EncError} (h : be32 v = .error e) : e = .numericOverflow := by
  rw [be32] at h
  split at h <;> cases h
  rfl

/-- A stepper builder's error is that of the first operand that does not convert. -/
theorem buildStepper_error {d : Byte} {id accel vel pos : Int} {e : EncError}
    (h : buildStepper d id accel vel pos = .error e) : e = .numericOverflow := by
  rw [buildStepper] at h
  split at h
  · next hid => cases h; exact idByte_error hid
  · split at h
    · next haccel => cases h; exact be32_error haccel
    · split at h
      · next hvel => cases h; exact be32_error hvel
      · split at h
        · next hpos => cases h; exact be32_error hpos
        · cases h

/-- ENC_FRAME's one error is a payload that does not fit. -/
theorem encodeFrame_eq_error {p : List Byte} {e : EncError} (h : encodeFrame p = .error e) :
    e = .payloadTooLarge ∧ 252 < p.length := by
  rcases Nat.lt_or_ge 252 p.length with hp | hp
  · rw [encodeFrame_of_gt hp] at h
    cases h
    exact ⟨rfl, hp⟩
  · rw [encodeFrame_of_le hp] at h
    cases h

/-! ### What an ENC operation returns tells what it computed -/

section finish
variable {s : State} {c : Except EncError (List Byte)}

theorem State.finish_results_err {e : EncError} (h : (s.finish c).results = s.results ++ [.err e]) : c = .error e := by
  cases c with
  | ok bs => simp at h
  | error e' => simpa using h

theorem State.finish_results_okBytes {f : List Byte} (h : (s.finish c).results = s.results ++ [.okBytes f]) :
    c = .ok f := by
  cases c with
  | ok bs => simpa using h
  | error e => simp at h

/-- A raised error is the result, and nothing else is written (60_exceptions.md R160). -/
theorem State.finish_of_error {e : EncError} (h : c = .error e) :
    s.finish c = { s with results := s.results ++ [.err e] } := by
  rw [h, State.finish_error, State.answer]

end finish

theorem exec_encFrame (p : List Byte) (s : State) : exec (.encFrame p) s = .next (s.finish (encodeFrame p)) := rfl

theorem exec_bldStepImm (id accel vel pos : Int) (s : State) :
    exec (.bldStepImm id accel vel pos) s = .next (s.finish (buildStepper 0x0A#8 id accel vel pos)) := rfl

theorem exec_bldStepDef (id accel vel pos : Int) (s : State) :
    exec (.bldStepDef id accel vel pos) s = .next (s.finish (buildStepper 0x0B#8 id accel vel pos)) := rfl

/-- Where ENC_FRAME returns bytes, they are the frame it computed. -/
theorem exec_encFrame_okBytes {p f : List Byte} {s t : State} (h : exec (.encFrame p) s = .next t)
    (hf : t.results = s.results ++ [.okBytes f]) : encodeFrame p = .ok f := by
  rw [exec_encFrame] at h
  cases h
  exact State.finish_results_okBytes hf

/-! ### Which operations return an error -/

section errors
variable {s t : State} {e : EncError}

/-- An RX operation returns events or nothing, never an error: malformed input is an event (00_scope.md R13). -/
theorem exec_rx_results_ne_err {i : Instr} {k : Nat} (hi : i.rxTarget = some k) (h : exec i s = .next t) :
    t.results ≠ s.results ++ [.err e] := by
  cases i with
  | servoSet | stepperMoveImm | stepperMoveDef | execDeferred | rxByte | rxChunk =>
    obtain ⟨r, -, -, rfl⟩ := onOpenRx_next h
    simp
  | connOpen | connClose =>
    obtain ⟨r, -, rfl⟩ := onRx_next h
    simp
  | chkCompute | encFrame | bldServo | bldStepImm | bldStepDef | bldExecDef | reservedAB | reservedCF => cases hi

/-- Only ENC_FRAME and the two stepper builders return an error, and it is the one they computed. -/
theorem exec_results_err {i : Instr} (h : exec i s = .next t) (he : t.results = s.results ++ [.err e]) :
    (∃ p, i = .encFrame p ∧ encodeFrame p = .error e) ∨
    (∃ id accel vel pos, i = .bldStepImm id accel vel pos ∧ buildStepper 0x0A#8 id accel vel pos = .error e) ∨
    (∃ id accel vel pos, i = .bldStepDef id accel vel pos ∧ buildStepper 0x0B#8 id accel vel pos = .error e) := by
  cases i with
  | encFrame p => cases h; exact .inl ⟨p, rfl, State.finish_results_err he⟩
  | bldStepImm id a v p => cases h; exact .inr (.inl ⟨id, a, v, p, rfl, State.finish_results_err he⟩)
  | bldStepDef id a v p => cases h; exact .inr (.inr ⟨id, a, v, p, rfl, State.finish_results_err he⟩)
  | bldServo | bldExecDef => cases h; cases State.finish_results_err he
  | chkCompute => cases h; simp at he
  | servoSet | stepperMoveImm | stepperMoveDef | execDeferred | rxByte | rxChunk | connOpen | connClose =>
    exact absurd he (exec_rx_results_ne_err rfl h)
  | reservedAB | reservedCF => cases h

end errors

/-- Settles O24: the payload's length alone decides, and the builders' only error is another one. -/
theorem payloadTooLargeExactlyAbove252 : Obligations.PayloadTooLargeExactlyAbove252 := by
  refine ⟨fun p s hp => ?raised, fun i s t h he => ?only, rfl⟩
  case raised => rw [exec_encFrame, State.finish_of_error (encodeFrame_of_gt hp)]
  case only =>
    rcases exec_results_err h he with ⟨p, rfl, hp⟩ | ⟨id, a, v, p, -, hb⟩ | ⟨id, a, v, p, -, hb⟩
    · exact ⟨p, rfl, (encodeFrame_eq_error hp).2⟩
    · cases buildStepper_error hb
    · cases buildStepper_error hb

/-- A frame holds the whole payload and its own length, neither truncated nor wrapped. -/
theorem encodeFrame_holds_payload_and_length {p f : List Byte} (h : encodeFrame p = .ok f) :
    (f.drop 2).take p.length = p ∧ f[1]?.map BitVec.toNat = some f.length := by
  obtain ⟨hp, hf⟩ := encodeFrame_eq_ok h
  have hlen : f.length - 3 = p.length := by simp [hf]
  obtain ⟨f', hf', -, -, -, hlength, hpayload, -⟩ := frameLayout p hp
  obtain rfl : f = f' := Except.ok.inj (h.symm.trans hf')
  exact ⟨hlen ▸ hpayload, hlength⟩

/-- Settles O59: each of the three operations ends in `finish` of what it computed, and ENC_FRAME's bytes are a frame
of a payload that fits. -/
theorem raisedErrorIsReturned : Obligations.RaisedErrorIsReturned := by
  intro s
  refine ⟨fun p e he => ?frame, fun id a v p e he => ?imm, fun id a v p e he => ?defer, fun p f t h hf => ?whole⟩
  case frame => rw [exec_encFrame, State.finish_of_error he]
  case imm => rw [exec_bldStepImm, State.finish_of_error he]
  case defer => rw [exec_bldStepDef, State.finish_of_error he]
  case whole => exact encodeFrame_holds_payload_and_length (exec_encFrame_okBytes h hf)

end Sys2Proof.Machine
end

section
/-! PROOFS. The malformed frames of RX (60_exceptions.md R163, R164): which byte in which phase gives which event, and
that the event is given for nothing else. -/

namespace Sys2Proof.Machine

open Sys2Proof

/-! ### The bytes that end a frame as malformed -/

section take
variable {r : Rx} {w : Nat} {b : Byte}

theorem Rx.take_lengthTooSmall (hp : r.phase = .awaitingLength) (hb : b.toNat < 3) :
    r.take w b = r.malformed .lengthTooSmall := by
  simpa [Rx.malformed, hp, hb, hb.ne, hb.not_gt] using r.take_cases w b

theorem Rx.take_checksumFailed (hp : r.phase = .awaitingChecksum) (hb : b ≠ r.acc) :
    r.take w b = r.malformed .checksumFailed := by
  simpa [Rx.malformed, hp, hb] using r.take_cases w b

/-- A byte gives a malformed-frame event in two arms of the phase machine only. -/
theorem Rx.malformedFrame_mem_take {why : Reason} (h : .malformedFrame why ∈ (r.take w b).2) :
    (why = .lengthTooSmall ∧ r.phase = .awaitingLength ∧ b.toNat < 3) ∨
    (why = .checksumFailed ∧ r.phase = .awaitingChecksum ∧ b ≠ r.acc) := by
  rcases r.take_cases w b with ⟨-, -, ht⟩ | ⟨-, -, ht⟩ | ⟨hp, hb, ht⟩ | ⟨-, -, ht⟩ | ⟨-, -, ht⟩ | ⟨-, -, ht⟩ |
    ⟨-, -, ht⟩ | ⟨-, -, ht⟩ | ⟨hp, hb, ht⟩
  · simp [ht] at h
  · simp [ht] at h
  · exact .inl ⟨by simpa [ht] using h, hp, hb⟩
  · simp [ht] at h
  · simp [ht] at h
  · simp [ht] at h
  · simp [ht] at h
  · simp [ht] at h
  · exact .inr ⟨by simpa [ht] using h, hp, hb⟩

end take

/-- In `AwaitingChecksum` the running XOR is the checksum of the frame's earlier bytes (10_state.md R27). -/
theorem State.Inv.acc_eq_foldXor {s : State} {k : Nat} {r : Rx} (hinv : s.Inv) (hr : s.rx[k]? = some r)
    (hp : r.phase = .awaitingChecksum) : r.acc = foldXor ([0xAA#8, r.len] ++ r.buf) := by
  obtain ⟨-, -, -, hchecksum, -⟩ := hinv r (List.mem_of_getElem? hr)
  obtain ⟨-, -, hacc⟩ := hchecksum hp
  exact hacc

/-! ### The operations that deliver such a byte -/

/-- A chunk of one byte is the byte. -/
theorem exec_rxChunk_singleton (s : State) (k : Nat) (b : Byte) : exec (.rxChunk k [b]) s = exec (.rxByte k b) s := by
  have hfeed (r : Rx) : r.feed s.counterWidth [b] = r.take s.counterWidth b := by
    rw [Rx.feed_cons, Rx.feed_nil, List.append_nil]
  simp only [exec, execRxChunk, deliver, execRxByte, hfeed]

/-- A malformed frame reported on an open instance: the one event, and the instance scans for a start byte again with
its count unchanged. -/
theorem exec_rxByte_of_malformed {s : State} {k : Nat} {r : Rx} {b : Byte} {why : Reason} (hr : s.rx[k]? = some r)
    (ho : r.isOpen = true) (h : r.take s.counterWidth b = r.malformed why) :
    ∃ r' : Rx, r'.phase = .awaitingStart ∧ r'.count = r.count ∧ r'.isOpen = true ∧
      exec (.rxByte k b) s = .next { s with
        rx := s.rx.set k r', results := s.results ++ [.events [.malformedFrame why]] } ∧
      exec (.rxChunk k [b]) s = exec (.rxByte k b) s :=
  ⟨r.toStart, rfl, rfl, ho, exec_rxByte_of_take hr ho h, exec_rxChunk_singleton s k b⟩

/-- A malformed frame among the events RX_BYTE returned, traced back to the instance and its phase. -/
theorem exec_rxByte_malformedFrame_mem {s t : State} {k : Nat} {b : Byte} {es : List Event} {why : Reason}
    (h : exec (.rxByte k b) s = .next t) (hes : t.results = s.results ++ [.events es])
    (hmem : .malformedFrame why ∈ es) :
    ∃ r, s.rx[k]? = some r ∧
      ((why = .lengthTooSmall ∧ r.phase = .awaitingLength ∧ b.toNat < 3) ∨
       (why = .checksumFailed ∧ r.phase = .awaitingChecksum ∧ b ≠ r.acc)) := by
  obtain ⟨r, hr, -, rfl⟩ := exec_rxByte_next h
  obtain rfl : (r.take s.counterWidth b).2 = es := by simpa using hes
  exact ⟨r, hr, Rx.malformedFrame_mem_take hmem⟩

/-- Settles O40: a length byte below 3 is the one arm of the phase machine with this event. -/
theorem lengthTooSmallIsReported : Obligations.LengthTooSmallIsReported := by
  refine ⟨fun s k r b hr ho hp hb => ?reported, fun s t k b es h hes hmem => ?only, rfl⟩
  case reported => exact exec_rxByte_of_malformed hr ho (Rx.take_lengthTooSmall hp hb)
  case only =>
    obtain ⟨r, hr, ⟨-, hp, hb⟩ | ⟨hwhy, -⟩⟩ := exec_rxByte_malformedFrame_mem h hes hmem
    · exact ⟨hb, r, hr, hp⟩
    · cases hwhy

/-- Settles O41: the byte is compared with the running XOR, which the invariant says is `fold_xor` of the frame's
earlier bytes. -/
theorem checksumFailedIsReported : Obligations.ChecksumFailedIsReported := by
  refine ⟨fun s k r b hinv hr ho hp hb => ?reported, fun s t k b es hinv h hes hmem => ?only, rfl⟩
  case reported =>
    rw [← hinv.acc_eq_foldXor hr hp] at hb
    exact exec_rxByte_of_malformed hr ho (Rx.take_checksumFailed hp hb)
  case only =>
    obtain ⟨r, hr, ⟨hwhy, -⟩ | ⟨-, hp, hb⟩⟩ := exec_rxByte_malformedFrame_mem h hes hmem
    · cases hwhy
    · exact ⟨r, hr, hp, hinv.acc_eq_foldXor hr hp ▸ hb⟩

end Sys2Proof.Machine
end

section
/-! PROOFS. The connection operations reset the receiver (70_reset_and_hazards.md R181): CONN_OPEN and CONN_CLOSE on an
existing instance, open or closed. -/

namespace Sys2Proof.Machine

open Sys2Proof

section connection
variable {s : State} {k : Nat} {r : Rx}

theorem exec_connOpen_of_some (hr : s.rx[k]? = some r) :
    exec (.connOpen k) s = .next ((s.setRx k r.opened).answer .okUnit) :=
  onRx_of_some (fun r => (r.opened, .okUnit)) hr

theorem exec_connClose_of_some (hr : s.rx[k]? = some r) :
    exec (.connClose k) s = .next ((s.setRx k r.closed).answer (.events [])) :=
  onRx_of_some (fun r => (r.closed, .events [])) hr

end connection

/-- The closed instance is the power-on state but for the count it keeps (42_receiver.md R140). -/
theorem Rx.closed_eq_powerOn (r : Rx) : r.closed = { Rx.powerOn with count := r.count } := rfl

/-- Settles O54: each operation makes its one write whether or not the connection was open; an opened instance is ready
at count 0, and a closed one keeps nothing but its count. -/
theorem connectionResetsReceiver : Obligations.ConnectionResetsReceiver := by
  intro s k r hr
  constructor
  · rw [exec_connOpen_of_some hr, Rx.opened_eq_ready, Rx.ready, State.setRx, State.answer]
  · rw [exec_connClose_of_some hr, Rx.closed_eq_powerOn, Rx.powerOn, State.setRx, State.answer]

end Sys2Proof.Machine
end

section
/-! PROOFS. What every step keeps (10_state.md R27, R31): every operation that brings bytes is an RX_CHUNK, so one case
split over CONN_OPEN, CONN_CLOSE and RX_CHUNK says what an RX operation can do; the receiver invariants, the
configuration, `open` and the packet counter follow from it. -/

namespace Sys2Proof.Machine

open Sys2Proof

/-! ### The three kinds of RX operation -/

/-- An operation on instance `k` is CONN_OPEN, CONN_CLOSE, or delivers bytes as an RX_CHUNK does. -/
theorem rx_operation_kinds {i : Instr} {k : Nat} (hi : i.rxTarget = some k) :
    i = .connOpen k ∨ i = .connClose k ∨
      (i ≠ .connOpen k ∧ i ≠ .connClose k ∧ ∃ bs, ∀ s, exec i s = exec (.rxChunk k bs) s) := by
  cases i with
  | connOpen => cases hi; exact .inl rfl
  | connClose => cases hi; exact .inr (.inl rfl)
  | servoSet | stepperMoveImm | stepperMoveDef | execDeferred | rxChunk =>
    cases hi
    exact .inr (.inr ⟨nofun, nofun, _, fun _ => rfl⟩)
  | rxByte _ b =>
    cases hi
    exact .inr (.inr ⟨nofun, nofun, [b], fun s => (exec_rxChunk_singleton s _ b).symm⟩)
  | chkCompute | encFrame | bldServo | bldStepImm | bldStepDef | bldExecDef | reservedAB | reservedCF => cases hi

section rxNext
variable {s t : State} {k : Nat} {r : Rx}

theorem exec_connOpen_next (h : exec (.connOpen k) s = .next t) :
    ∃ r, s.rx[k]? = some r ∧ t = (s.setRx k r.opened).answer .okUnit :=
  onRx_next h

theorem exec_connClose_next (h : exec (.connClose k) s = .next t) :
    ∃ r, s.rx[k]? = some r ∧ t = (s.setRx k r.closed).answer (.events []) :=
  onRx_next h

/-- All that an RX operation does where it answers a next state: the instance it names is opened, closed, or fed. -/
theorem exec_rx_next {i : Instr} (hi : i.rxTarget = some k) (h : exec i s = .next t) :
    ∃ r, s.rx[k]? = some r ∧
      ((i = .connOpen k ∧ t = (s.setRx k r.opened).answer .okUnit) ∨
       (i = .connClose k ∧ t = (s.setRx k r.closed).answer (.events [])) ∨
       (r.isOpen = true ∧ i ≠ .connOpen k ∧ i ≠ .connClose k ∧ ∃ bs,
        t = (s.setRx k (r.feed s.counterWidth bs).1).answer (.events (r.feed s.counterWidth bs).2))) := by
  rcases rx_operation_kinds hi with rfl | rfl | ⟨hopen, hclose, bs, hbs⟩
  · obtain ⟨r, hr, ht⟩ := exec_connOpen_next h
    exact ⟨r, hr, .inl ⟨rfl, ht⟩⟩
  · obtain ⟨r, hr, ht⟩ := exec_connClose_next h
    exact ⟨r, hr, .inr (.inl ⟨rfl, ht⟩)⟩
  · obtain ⟨r, hr, ho, ht⟩ := exec_rxChunk_next ((hbs s).symm.trans h)
    exact ⟨r, hr, .inr (.inr ⟨ho, hopen, hclose, bs, ht⟩)⟩

end rxNext

/-! ### The receiver invariants (10_state.md R27) -/

section invariants
variable {w : Nat} {r : Rx}

/-- An instance back at the scan keeps the invariants, whatever its connection, as long as its count does. -/
theorem Rx.Inv.of_scan (hp : r.phase = .awaitingStart) (hlen : r.len = 0x00#8) (hbuf : r.buf = [])
    (hacc : r.acc = 0x00#8) (hcount : r.count < 2 ^ w) : r.Inv w := by
  simp [Rx.Inv, hp, hlen, hbuf, hacc, hcount]

theorem Rx.Inv.powerOn (w : Nat) : Rx.powerOn.Inv w :=
  .of_scan rfl rfl rfl rfl (Nat.two_pow_pos w)

theorem Rx.Inv.opened (w : Nat) (r : Rx) : r.opened.Inv w :=
  .of_scan rfl rfl rfl rfl (Nat.two_pow_pos w)

theorem Rx.Inv.count_lt (h : r.Inv w) : r.count < 2 ^ w := by
  obtain ⟨-, -, -, -, hcount, -⟩ := h
  exact hcount

theorem Rx.Inv.toStart (h : r.Inv w) : r.toStart.Inv w :=
  .of_scan rfl rfl rfl rfl h.count_lt

theorem Rx.Inv.closed (h : r.Inv w) : r.closed.Inv w :=
  .of_scan rfl rfl rfl rfl h.count_lt

/-- The running XOR of a frame takes one more byte as the payload does. -/
theorem foldXor_frame_concat (l : Byte) (buf : List Byte) (b : Byte) :
    foldXor (0xAA#8 :: l :: (buf ++ [b])) = foldXor (0xAA#8 :: l :: buf) ^^^ b :=
  foldXor_concat (0xAA#8 :: l :: buf) b

/-- A byte to an open instance keeps the invariants: the running XOR takes every byte that `len` and `buf` take. -/
theorem Rx.Inv.take (h : r.Inv w) (ho : r.isOpen = true) (b : Byte) : (r.take w b).1.Inv w := by
  have ⟨hstart, hlength, hpayload, _, hcount, _⟩ := h
  rcases r.take_cases w b with ⟨hp, -, ht⟩ | ⟨-, -, ht⟩ | ⟨-, -, ht⟩ | ⟨hp, hb, ht⟩ | ⟨hp, hb, ht⟩ | ⟨hp, hn, ht⟩ |
    ⟨hp, hn, ht⟩ | ⟨-, -, ht⟩ | ⟨-, -, ht⟩ <;> rw [ht]
  · obtain ⟨hbuf, hlen, -⟩ := hstart hp
    simp [Rx.Inv, hbuf, hlen, hcount, ho, Config.start]
  · exact h
  · exact h.toStart
  · obtain ⟨hbuf, -, hacc⟩ := hlength hp
    simp [Rx.Inv, hbuf, hacc, hb, hcount, ho, foldXor]
  · obtain ⟨hbuf, -, hacc⟩ := hlength hp
    have hmin : 4 ≤ b.toNat := hb
    have hdue : 0 < b.toNat - 3 := by omega
    simp [Rx.Inv, hbuf, hacc, hcount, ho, foldXor, hmin, hdue]
  · obtain ⟨hlen, -, hacc⟩ := hpayload hp
    have hmin : 3 ≤ r.len.toNat := by omega
    simp [Rx.Inv, hcount, ho, hn, hacc, hmin, foldXor_frame_concat]
  · obtain ⟨hlen, hlt, hacc⟩ := hpayload hp
    have hmore : r.buf.length + 1 < r.len.toNat - 3 := by omega
    simp [Rx.Inv, hcount, ho, hacc, hlen, hmore, foldXor_frame_concat]
  · exact .of_scan rfl rfl rfl rfl (Nat.mod_lt _ (Nat.two_pow_pos w))
  · exact h.toStart

theorem Rx.Inv.feed (h : r.Inv w) (ho : r.isOpen = true) (bs : List Byte) : (r.feed w bs).1.Inv w := by
  induction bs generalizing r with
  | nil => exact h
  | cons b bs ih =>
    rw [Rx.feed_cons]
    exact ih (h.take ho b) ((r.take_isOpen w b).trans ho)

end invariants

section stateInv
variable {s t : State}

theorem State.Inv.setRx {k : Nat} {r : Rx} (h : s.Inv) (hr : r.Inv s.counterWidth) : (s.setRx k r).Inv := by
  intro q hq
  rcases List.mem_or_eq_of_mem_set hq with hq | rfl
  · exact h q hq
  · exact hr

/-- Every operation keeps the receiver invariants. -/
theorem State.Inv.exec {i : Instr} (h : s.Inv) (hexec : exec i s = .next t) : t.Inv := by
  rcases exec_next hexec with ⟨-, res, rfl⟩ | ⟨k, -, -, -, hi, -, -⟩
  · exact h
  · obtain ⟨r, hr, ⟨-, rfl⟩ | ⟨-, rfl⟩ | ⟨ho, -, -, bs, rfl⟩⟩ := exec_rx_next hi hexec
    all_goals have hinv : r.Inv s.counterWidth := h r (List.mem_of_getElem? hr)
    · exact h.setRx (.opened _ r)
    · exact h.setRx hinv.closed
    · exact h.setRx (hinv.feed ho bs)

theorem State.Inv.resetWith (n w : Nat) : (State.resetWith n w).Inv := by
  intro r hr
  obtain rfl := List.eq_of_mem_replicate hr
  exact .powerOn w

end stateInv

/-- Settles O12: an idle step changes nothing, and each kind of RX operation writes an instance that keeps the
invariants. -/
theorem stepKeepsReceiverInvariants : Obligations.StepKeepsReceiverInvariants := by
  intro s t h hstep
  rcases step_next hstep with ⟨-, rfl⟩ | ⟨q, rest, i, -, -, hexec⟩
  · exact h
  · exact State.Inv.exec (s := { s with program := rest }) h hexec

/-- Settles O11: every instance is in the power-on state, which keeps the invariants. -/
theorem resetKeepsReceiverInvariants : Obligations.ResetKeepsReceiverInvariants :=
  ⟨State.Inv.resetWith, State.Inv.resetWith Config.nConn Config.counterWidth⟩

/-- The buffer holds payload bytes of the frame being received only, in every phase. -/
theorem Rx.Inv.buf_length_le {w : Nat} {r : Rx} (h : r.Inv w) : r.buf.length ≤ r.len.toNat - 3 := by
  obtain ⟨hstart, hlength, hpayload, hchecksum, -⟩ := h
  cases hp : r.phase with
  | awaitingStart => simp [hstart hp]
  | awaitingLength => simp [hlength hp]
  | accumulatingPayload =>
    obtain ⟨-, hlt, -⟩ := hpayload hp
    exact hlt.le
  | awaitingChecksum =>
    obtain ⟨-, heq, -⟩ := hchecksum hp
    exact heq.le

/-- Settles O38: the invariants bound the buffer by the length byte, which is at most 255. -/
theorem bufferStaysWithinCapacity : Obligations.BufferStaysWithinCapacity := by
  intro i s t r h hexec hr
  have hbuf := (h.exec hexec r hr).buf_length_le
  have hlen := r.len.isLt
  exact ⟨hbuf, by omega⟩

/-! ### Configuration and the pending program (10_state.md R31) -/

/-- Every operation answers exactly one result and leaves the configuration and what else the host has issued. -/
theorem exec_next_keeps {i : Instr} {s t : State} (h : exec i s = .next t) :
    t.counterWidth = s.counterWidth ∧ t.nConn = s.nConn ∧ t.program = s.program ∧
      ∃ res, t.results = s.results ++ [res] := by
  rcases exec_next h with ⟨-, res, rfl⟩ | ⟨k, r, r', res, -, -, rfl⟩
  · exact ⟨rfl, rfl, rfl, res, rfl⟩
  · exact ⟨rfl, by simp, rfl, res, rfl⟩

/-- Settles O13: an idle step changes nothing, and an operation runs in the state whose program has lost its issue. -/
theorem stepWritesNoConfiguration : Obligations.StepWritesNoConfiguration := by
  intro s t h
  rcases step_next h with ⟨hp, rfl⟩ | ⟨q, rest, i, hp, -, hexec⟩
  · exact ⟨rfl, rfl, by rw [hp, List.tail_nil], fun hne => absurd hp hne⟩
  · obtain ⟨hw, hn, hprog, hres⟩ := exec_next_keeps hexec
    exact ⟨hw, hn, by rw [hprog, hp, List.tail_cons], fun _ => hres⟩

/-! ### One instance before and after an operation -/

/-- Settles O14: the one write of an operation is to the instance it names. -/
theorem otherInstancesAreUntouched : Obligations.OtherInstancesAreUntouched := by
  intro i s t k h hk
  rcases exec_next h with ⟨-, res, rfl⟩ | ⟨j, r, r', res, hj, -, rfl⟩
  · rfl
  · have hjk : j ≠ k := fun hjk => hk (hjk ▸ hj)
    exact s.setRx_getElem?_ne hjk r'

/-- All that an operation on instance `k` makes of it, and the result it returns with that. -/
theorem exec_rx_instance {i : Instr} {s t : State} {k : Nat} {r r' : Rx} (hi : i.rxTarget = some k)
    (h : exec i s = .next t) (hr : s.rx[k]? = some r) (hr' : t.rx[k]? = some r') :
    (i = .connOpen k ∧ r' = r.opened) ∨
    (i = .connClose k ∧ r' = r.closed ∧ t.results = s.results ++ [.events []]) ∨
    (i ≠ .connOpen k ∧ i ≠ .connClose k ∧ ∃ bs, r' = (r.feed s.counterWidth bs).1 ∧
      t.results = s.results ++ [.events (r.feed s.counterWidth bs).2]) := by
  obtain ⟨q, hq, hcase⟩ := exec_rx_next hi h
  obtain rfl : r = q := Option.some.inj (hr.symm.trans hq)
  rcases hcase with ⟨rfl, rfl⟩ | ⟨rfl, rfl⟩ | ⟨-, hopen, hclose, bs, rfl⟩
  all_goals
    rw [State.answer_rx, State.setRx_getElem?_self hr] at hr'
    cases hr'
  · exact .inl ⟨rfl, rfl⟩
  · exact .inr (.inl ⟨rfl, rfl, rfl⟩)
  · exact .inr (.inr ⟨hopen, hclose, bs, rfl, rfl⟩)

/-- Settles O16: an operation that names another instance leaves this one, bytes never write `open`, and the connection
operations write the value claimed. -/
theorem openChangesOnlyAtConnection : Obligations.OpenChangesOnlyAtConnection := by
  intro i s t k r r' h hr hr' hne
  by_cases hi : i.rxTarget = some k
  · rcases exec_rx_instance hi h hr hr' with ⟨rfl, rfl⟩ | ⟨rfl, rfl, -⟩ | ⟨-, -, bs, rfl, -⟩
    · exact .inl ⟨rfl, rfl⟩
    · exact .inr ⟨rfl, rfl⟩
    · exact absurd (r.feed_isOpen s.counterWidth bs) hne
  · rw [otherInstancesAreUntouched i s t k h hi, hr] at hr'
    cases hr'
    exact absurd rfl hne

/-! ### The packet counter (10_state.md R26) -/

theorem completedCount_append (es fs : List Event) :
    completedCount (es ++ fs) = completedCount es + completedCount fs := by
  induction es with
  | nil => simp [completedCount]
  | cons e es ih =>
    cases e with
    | completedFrame => simp only [List.cons_append, completedCount, ih]; omega
    | malformedFrame => simp only [List.cons_append, completedCount, ih]

section counter
variable {w : Nat} {r : Rx}

/-- A byte adds to the counter, modulo its width, the number of frames it completes. -/
theorem Rx.take_count (h : r.count < 2 ^ w) (b : Byte) :
    (r.take w b).1.count = (r.count + completedCount (r.take w b).2) % 2 ^ w := by
  have hmod := Nat.mod_eq_of_lt h
  rcases r.take_cases w b with ⟨-, -, ht⟩ | ⟨-, -, ht⟩ | ⟨-, -, ht⟩ | ⟨-, -, ht⟩ | ⟨-, -, ht⟩ | ⟨-, -, ht⟩ |
    ⟨-, -, ht⟩ | ⟨-, -, ht⟩ | ⟨-, -, ht⟩ <;> simp [ht, completedCount, Rx.nextCount, hmod]

theorem Rx.feed_count (h : r.count < 2 ^ w) (bs : List Byte) :
    (r.feed w bs).1.count = (r.count + completedCount (r.feed w bs).2) % 2 ^ w := by
  induction bs generalizing r with
  | nil => exact (Nat.mod_eq_of_lt h).symm
  | cons b bs ih =>
    have htake := r.take_count h b
    have hlt : (r.take w b).1.count < 2 ^ w := htake ▸ Nat.mod_lt _ (Nat.two_pow_pos w)
    simp only [Rx.feed_cons, completedCount_append]
    rw [ih hlt, htake, Nat.mod_add_mod, Nat.add_assoc]

end counter

/-- Settles O17: CONN_CLOSE returns no event and keeps the count, and bytes count what they complete. -/
theorem counterCountsCompletedFrames : Obligations.CounterCountsCompletedFrames := by
  intro i s t k r r' hcount h hr hr'
  refine ⟨fun hi => ?other, fun hi => ?opened, fun es hi hne hes => ?counted⟩
  case other =>
    rw [otherInstancesAreUntouched i s t k h hi, hr] at hr'
    cases hr'
    rfl
  case opened =>
    subst hi
    rcases exec_rx_instance rfl h hr hr' with ⟨-, rfl⟩ | ⟨himp, -⟩ | ⟨hne, -⟩
    · rfl
    · cases himp
    · exact absurd rfl hne
  case counted =>
    rcases exec_rx_instance hi h hr hr' with ⟨hopen, -⟩ | ⟨-, rfl, hres⟩ | ⟨-, -, bs, rfl, hres⟩
    · exact absurd hopen hne
    · obtain rfl : [] = es := by simpa [hres] using hes
      exact (Nat.mod_eq_of_lt hcount).symm
    · obtain rfl : (r.feed s.counterWidth bs).2 = es := by simpa [hres] using hes
      exact Rx.feed_count hcount bs

/-! ### What the host can see (10_state.md R33) -/

section observe
variable {s s' t : State}

theorem State.observe_answer (s : State) (res : Result) :
    (s.answer res).observe = { s.observe with results := s.observe.results ++ [res] } := rfl

theorem State.observe_setRx (s : State) (k : Nat) (r : Rx) :
    (s.setRx k r).observe = { s.observe with status := s.observe.status.set k (r.isOpen, r.count) } := by
  simp [State.observe, List.map_set]

/-- States that look the same have the same instances, each with the same `open` and `count`. -/
theorem State.getElem?_of_observe_eq {k : Nat} {r : Rx} (h : s.observe = s'.observe) (hr : s.rx[k]? = some r) :
    ∃ r', s'.rx[k]? = some r' ∧ r'.isOpen = r.isOpen ∧ r'.count = r.count := by
  have hstatus : s.observe.status[k]? = s'.observe.status[k]? := by rw [h]
  simpa [State.observe, hr, eq_comm] using hstatus

/-- An operation of ENC or CHK that answers anything answers the same in every state. -/
theorem exec_answers_of_next {i : Instr} (hi : i.rxTarget = none) (h : exec i s = .next t) :
    ∃ res, ∀ u : State, exec i u = .next (u.answer res) :=
  exec_answers_uniformly hi (by rintro x args rfl; cases h) (by rintro x args rfl; cases h)

end observe

/-- Settles O18: ENC and CHK read no state, and the connection operations write `open` and `count` from what can be seen
of them. -/
theorem hiddenStateShownOnlyByBytes : Obligations.HiddenStateShownOnlyByBytes := by
  intro i s s' t hobs hi h
  rcases hi with hi | ⟨k, rfl | rfl⟩
  · obtain ⟨res, hres⟩ := exec_answers_of_next hi h
    obtain rfl : s.answer res = t := Host.Outcome.next.inj ((hres s).symm.trans h)
    exact ⟨_, hres s', by rw [State.observe_answer, State.observe_answer, hobs]⟩
  · obtain ⟨r, hr, rfl⟩ := exec_connOpen_next h
    obtain ⟨r', hr', -, -⟩ := State.getElem?_of_observe_eq hobs hr
    refine ⟨_, exec_connOpen_of_some hr', ?_⟩
    rw [State.observe_answer, State.observe_answer, State.observe_setRx, State.observe_setRx, hobs]
    rfl
  · obtain ⟨r, hr, rfl⟩ := exec_connClose_next h
    obtain ⟨r', hr', -, hcount⟩ := State.getElem?_of_observe_eq hobs hr
    refine ⟨_, exec_connClose_of_some hr', ?_⟩
    rw [State.observe_answer, State.observe_answer, State.observe_setRx, State.observe_setRx, hobs, Rx.closed_count,
      Rx.closed_count, hcount, Rx.closed_isOpen, Rx.closed_isOpen]

end Sys2Proof.Machine
end

section
/-! PROOFS. The algebra of `fold_xor` (40_checksum.md R101, R102): order, concatenation, a frame with its checksum, and
changed bytes. -/

namespace Sys2Proof.Machine

open Sys2Proof

/-- One more byte at the front is one more XOR. -/
theorem foldXor_cons (b : Byte) (s : List Byte) : foldXor (b :: s) = b ^^^ foldXor s := by
  induction s using List.reverseRecOn with
  | nil => simp [foldXor]
  | append_singleton s c ih => rw [← List.cons_append, foldXor_concat, foldXor_concat, ih, BitVec.xor_assoc]

theorem foldXor_append (s t : List Byte) : foldXor (s ++ t) = foldXor s ^^^ foldXor t := by
  induction s with
  | nil => simp
  | cons b s ih => rw [List.cons_append, foldXor_cons, foldXor_cons, ih, BitVec.xor_assoc]

theorem foldXor_perm {s t : List Byte} (h : s.Perm t) : foldXor s = foldXor t := by
  induction h with
  | nil => rfl
  | cons b _ ih => rw [foldXor_cons, foldXor_cons, ih]
  | swap b c s =>
    rw [foldXor_cons, foldXor_cons, foldXor_cons, foldXor_cons, ← BitVec.xor_assoc, ← BitVec.xor_assoc,
      BitVec.xor_comm c b]
  | trans _ _ ih ih' => exact ih.trans ih'

/-- Bytes and a last one XOR to zero exactly when the last one is their checksum. -/
theorem foldXor_concat_eq_zero {s : List Byte} {c : Byte} : foldXor (s ++ [c]) = 0x00#8 ↔ c = foldXor s := by
  rw [foldXor_concat, BitVec.xor_eq_zero_iff, eq_comm]

/-- A changed byte changes the checksum by the old and the new one. -/
theorem foldXor_set {s : List Byte} {i : Nat} {b : Byte} (h : s[i]? = some b) (b' : Byte) :
    foldXor (s.set i b') = foldXor s ^^^ b ^^^ b' := by
  induction s generalizing i with
  | nil => cases h
  | cons c s ih =>
    cases i with
    | zero =>
      obtain rfl : c = b := by simpa using h
      rw [List.set_cons_zero, foldXor_cons, foldXor_cons, BitVec.xor_comm c (foldXor s), BitVec.xor_assoc (foldXor s),
        BitVec.xor_self, BitVec.xor_zero, BitVec.xor_comm]
    | succ i => rw [List.set_cons_succ, foldXor_cons, foldXor_cons, ih h, BitVec.xor_assoc, BitVec.xor_assoc,
        BitVec.xor_assoc]

/-- One changed byte always shows. -/
theorem foldXor_set_ne {s : List Byte} {i : Nat} {b b' : Byte} (h : s[i]? = some b) (hne : b ≠ b') :
    foldXor (s.set i b') ≠ foldXor s := by
  rw [foldXor_set h, BitVec.xor_assoc]
  intro heq
  exact hne (BitVec.xor_eq_zero_iff.mp ((BitVec.xor_right_inj _).mp (heq.trans BitVec.xor_zero.symm)))

theorem foldXor_zipWith_xor {s d : List Byte} (h : s.length = d.length) :
    foldXor (List.zipWith (fun a b => a ^^^ b) s d) = foldXor s ^^^ foldXor d := by
  induction s generalizing d with
  | nil =>
    obtain rfl := List.eq_nil_of_length_eq_zero h.symm
    rfl
  | cons a s ih =>
    cases d with
    | nil => cases h
    | cons b d =>
      rw [List.zipWith_cons_cons, foldXor_cons, foldXor_cons, foldXor_cons, ih (Nat.succ.inj h)]
      ac_rfl

/-- Settles O20: `fold_xor` is a fold of an associative and commutative operation in which every byte cancels itself. -/
theorem foldXorAlgebra : Obligations.FoldXorAlgebra := by
  refine ⟨fun s t => foldXor_perm, foldXor_append, fun s => foldXor_concat_eq_zero.mpr rfl,
    fun s i b b' h hne => ⟨foldXor_set h b', foldXor_set_ne h hne⟩, fun s d h hd => ?_⟩
  rw [foldXor_zipWith_xor h, hd, BitVec.xor_zero]

theorem exec_chkCompute (bs : List Byte) (s : State) :
    exec (.chkCompute bs) s = .next (s.answer (.okByte (foldXor bs))) := rfl

/-- Settles O21: CHK_COMPUTE only answers the checksum, which is total. -/
theorem chkComputeReturnsChecksum : Obligations.ChkComputeReturnsChecksum :=
  ⟨exec_chkCompute, by decide⟩

end Sys2Proof.Machine
end

section
/-! PROOFS. Frames through the receiver (42_receiver.md R131 to R146): chunks joined, the instance in the middle of a
frame, a whole frame with the right or a wrong checksum, and from these the round trip, streams and corrupted frames. -/

namespace Sys2Proof.Machine

open Sys2Proof

/-! ### Chunks joined (R138) -/

theorem Rx.feed_append (w : Nat) (r : Rx) (bs cs : List Byte) :
    r.feed w (bs ++ cs) =
      (((r.feed w bs).1.feed w cs).1, (r.feed w bs).2 ++ ((r.feed w bs).1.feed w cs).2) := by
  induction bs generalizing r with
  | nil => rfl
  | cons b bs ih => simp only [List.cons_append, Rx.feed_cons, ih, List.append_assoc]

/-- Bytes after bytes that gave no event. -/
theorem Rx.feed_append_of_silent {w : Nat} {r r' : Rx} {bs : List Byte} (h : r.feed w bs = (r', [])) (cs : List Byte) :
    r.feed w (bs ++ cs) = r'.feed w cs := by
  rw [Rx.feed_append, h, List.nil_append]

theorem Rx.feed_singleton (w : Nat) (r : Rx) (b : Byte) : r.feed w [b] = r.take w b := by
  rw [Rx.feed_cons, Rx.feed_nil, List.append_nil]

/-- Settles O43: feeding a concatenation is feeding its parts in order. -/
theorem chunkBoundariesDoNotMatter : Obligations.ChunkBoundariesDoNotMatter := by
  intro s k r bs cs hr ho
  have ho' := (r.feed_isOpen s.counterWidth bs).trans ho
  refine ⟨_, _, _, _, exec_rxChunk_of_feed hr ho rfl, rfl,
    exec_rxChunk_of_feed (State.setRx_getElem?_self hr _) ho' rfl, rfl, ?_⟩
  rw [exec_rxChunk_of_feed hr ho (r.feed_append s.counterWidth bs cs)]
  simp [State.answer]

/-! ### Events per byte (R139) -/

section events
variable (w : Nat) (r : Rx)

theorem Rx.take_events (b : Byte) : (r.take w b).2.length ≤ 1 ∧
    ((r.take w b).2 ≠ [] → (r.phase = .awaitingLength ∧ b.toNat < 3) ∨ r.phase = .awaitingChecksum) := by
  have silent (P : Prop) : ([] : List Event).length ≤ 1 ∧ (([] : List Event) ≠ [] → P) :=
    ⟨Nat.zero_le 1, fun h => absurd rfl h⟩
  rcases r.take_cases w b with ⟨-, -, ht⟩ | ⟨-, -, ht⟩ | ⟨hp, hb, ht⟩ | ⟨-, -, ht⟩ | ⟨-, -, ht⟩ | ⟨-, -, ht⟩ |
    ⟨-, -, ht⟩ | ⟨hp, -, ht⟩ | ⟨hp, -, ht⟩ <;> rw [ht]
  · exact silent _
  · exact silent _
  · exact ⟨Nat.le_refl 1, fun _ => .inl ⟨hp, hb⟩⟩
  · exact silent _
  · exact silent _
  · exact silent _
  · exact silent _
  · exact ⟨Nat.le_refl 1, fun _ => .inr hp⟩
  · exact ⟨Nat.le_refl 1, fun _ => .inr hp⟩

theorem Rx.feed_events_length_le (bs : List Byte) : (r.feed w bs).2.length ≤ bs.length := by
  induction bs generalizing r with
  | nil => exact Nat.le_refl 0
  | cons b bs ih =>
    have hhead := (r.take_events w b).1
    have htail := ih (r.take w b).1
    rw [Rx.feed_cons, List.length_append, List.length_cons]
    omega

end events

/-- Settles O44: only two arms of the phase machine give an event, each one, and a chunk is its bytes in order. -/
theorem atMostOneEventPerByte : Obligations.AtMostOneEventPerByte := by
  constructor
  · intro s t k r b es hr h hes
    obtain ⟨q, hq, -, rfl⟩ := exec_rxByte_next h
    obtain rfl : r = q := Option.some.inj (hr.symm.trans hq)
    obtain rfl : (r.take s.counterWidth b).2 = es := by simpa using hes
    exact r.take_events s.counterWidth b
  · intro s t k bs es h hes
    obtain ⟨r, -, -, rfl⟩ := exec_rxChunk_next h
    obtain rfl : (r.feed s.counterWidth bs).2 = es := by simpa using hes
    exact r.feed_events_length_le s.counterWidth bs

/-! ### An instance in the middle of a frame -/

/-- An open instance with `n` frames counted that has taken a start byte, the length byte `l` and the bytes `body`. -/
def Rx.inFrame (n : Nat) (l : Byte) (body : List Byte) : Rx :=
  { isOpen := true
    phase := if body.length + 3 = l.toNat then .awaitingChecksum else .accumulatingPayload
    len := l, buf := body, acc := foldXor ([0xAA#8, l] ++ body), count := n }

section frame
variable {w n : Nat} {l : Byte}

theorem Rx.take_length_legal {r : Rx} (hp : r.phase = .awaitingLength) (hl : 3 ≤ l.toNat) :
    r.take w l = ({ r with
      len := l, acc := r.acc ^^^ l,
      phase := if l.toNat = 3 then .awaitingChecksum else .accumulatingPayload }, []) := by
  rcases hl.eq_or_lt with hl | hl
  · simpa [hp, ← hl] using r.take_cases w l
  · simpa [hp, hl, hl.ne', hl.not_gt] using r.take_cases w l

/-- A start byte and a legal length byte open a frame. -/
theorem Rx.feed_ready_header (hl : 3 ≤ l.toNat) : (Rx.ready n).feed w [0xAA#8, l] = (Rx.inFrame n l [], []) := by
  rw [Rx.feed_cons, Rx.take_start w rfl, Rx.feed_singleton, Rx.take_length_legal rfl hl]
  simp [Rx.inFrame, foldXor, eq_comm]

/-- A byte of the payload, the frame not being full. -/
theorem Rx.inFrame_take {body : List Byte} (hl : body.length + 3 < l.toNat) (b : Byte) :
    (Rx.inFrame n l body).take w b = (Rx.inFrame n l (body ++ [b]), []) := by
  have hp : (Rx.inFrame n l body).phase = .accumulatingPayload := if_neg hl.ne
  by_cases hlast : body.length + 1 = l.toNat - 3
  · have hfull : body.length + 1 + 3 = l.toNat := by omega
    rw [Rx.take_payload_last w b hp hlast]
    simp [Rx.inFrame, hfull, foldXor_frame_concat]
  · have hmore : body.length + 1 + 3 ≠ l.toNat := by omega
    rw [Rx.take_payload_more w b hp hlast]
    simp [Rx.inFrame, hmore, foldXor_frame_concat]

/-- From the scan: a start byte, a legal length byte and no more bytes than the payload is due to have. -/
theorem Rx.feed_ready_inFrame {body : List Byte} (hl : body.length + 3 ≤ l.toNat) :
    (Rx.ready n).feed w ([0xAA#8, l] ++ body) = (Rx.inFrame n l body, []) := by
  induction body using List.reverseRecOn with
  | nil => exact Rx.feed_ready_header hl
  | append_singleton body b ih =>
    have hlt : body.length + 3 < l.toNat := by
      rw [List.length_append, List.length_singleton] at hl
      omega
    rw [← List.append_assoc, Rx.feed_append_of_silent (ih hlt.le), Rx.feed_singleton, Rx.inFrame_take hlt]

theorem Rx.take_checksum_match {r : Rx} (hp : r.phase = .awaitingChecksum) :
    r.take w r.acc = ({ r.toStart with count := r.nextCount w }, [.completedFrame r.buf (r.nextCount w)]) := by
  simpa [hp] using r.take_cases w r.acc

section whole
variable {body : List Byte} {c : Byte} (hl : body.length + 3 = l.toNat)
include hl

/-- A frame with its checksum completes (R135). -/
theorem Rx.feed_ready_frame (hc : c = foldXor ([0xAA#8, l] ++ body)) :
    (Rx.ready n).feed w ([0xAA#8, l] ++ body ++ [c]) =
      (Rx.ready ((n + 1) % 2 ^ w), [.completedFrame body ((n + 1) % 2 ^ w)]) := by
  subst hc
  rw [Rx.feed_append_of_silent (Rx.feed_ready_inFrame hl.le), Rx.feed_singleton]
  exact Rx.take_checksum_match (if_pos hl)

/-- A frame with any other checksum byte fails (R136). -/
theorem Rx.feed_ready_frame_bad (hc : c ≠ foldXor ([0xAA#8, l] ++ body)) :
    (Rx.ready n).feed w ([0xAA#8, l] ++ body ++ [c]) = (Rx.ready n, [.malformedFrame .checksumFailed]) := by
  rw [Rx.feed_append_of_silent (Rx.feed_ready_inFrame hl.le), Rx.feed_singleton]
  exact Rx.take_checksumFailed (if_pos hl) hc

end whole
end frame

/-! ### The frames of ENC_FRAME -/

/-- The frame ENC_FRAME makes of a payload that fits completes with the payload. -/
theorem Rx.feed_ready_encoded {w n : Nat} {p : List Byte} (hp : p.length ≤ 252) :
    (Rx.ready n).feed w (frameBody p ++ [foldXor (frameBody p)]) =
      (Rx.ready ((n + 1) % 2 ^ w), [.completedFrame p ((n + 1) % 2 ^ w)]) :=
  Rx.feed_ready_frame (lengthByte_toNat hp).symm rfl

/-- Settles O48: ENC_FRAME's frame declares its own length and ends in its checksum. -/
theorem frameRoundTrip : Obligations.FrameRoundTrip := by
  intro p hp
  refine ⟨frameBody p ++ [foldXor (frameBody p)], fun s => ?encoded, fun s k n hr => ?received⟩
  case encoded => rw [exec_encFrame, encodeFrame_of_le hp, State.finish_ok, State.answer]
  case received => exact exec_rxChunk_of_feed hr rfl (Rx.feed_ready_encoded hp)

/-- Noise and frames in turn, from any count: by induction on the segments, each of which leaves the instance ready
with one more frame counted. -/
theorem Rx.feed_ready_stream (w : Nat) (segs : List (List Byte × List Byte))
    (h : ∀ q ∈ segs, (∀ b ∈ q.1, b ≠ 0xAA#8) ∧ q.2.length ≤ 252) (n : Nat) :
    (Rx.ready (n % 2 ^ w)).feed w (segs.flatMap fun q => q.1 ++ (frameBody q.2 ++ [foldXor (frameBody q.2)])) =
      (Rx.ready ((n + segs.length) % 2 ^ w),
        segs.mapIdx fun i q => .completedFrame q.2 ((n + i + 1) % 2 ^ w)) := by
  induction segs generalizing n with
  | nil => rfl
  | cons q segs ih =>
    obtain ⟨⟨hnoise, hfits⟩, hrest⟩ := List.forall_mem_cons.mp h
    rw [List.flatMap_cons, List.append_assoc, Rx.feed_append_of_silent (Rx.feed_noise w rfl hnoise), Rx.feed_append,
      Rx.feed_ready_encoded hfits, Nat.mod_add_mod, ih hrest (n + 1), List.mapIdx_cons, List.length_cons]
    simp only [Nat.add_zero, List.singleton_append, Nat.add_assoc, Nat.add_comm 1]

/-- Settles O49: the stream's chunk is fed segment by segment. -/
theorem streamOfFramesIsRecovered : Obligations.StreamOfFramesIsRecovered := by
  intro segs s k n hsegs hr hn
  have hfeed := Rx.feed_ready_stream s.counterWidth segs hsegs n
  rw [Nat.mod_eq_of_lt hn] at hfeed
  exact exec_rxChunk_of_feed hr rfl hfeed

/-! ### Corrupted frames (R146) -/

/-- Settles O53: the second `0xAA` is a length byte, and its XOR with the first leaves the bytes' own. -/
theorem strayStartSwallowsBytes : Obligations.StrayStartSwallowsBytes := by
  intro bs s k n hbs hr
  have hl : bs.length + 3 ≤ (0xAA#8).toNat := Nat.add_le_add_right hbs 3
  rw [exec_rxChunk_of_feed hr rfl (Rx.feed_ready_inFrame hl)]
  simp [Rx.inFrame, State.setRx, State.answer, foldXor_cons]

/-- A start byte and as many bytes as the length byte says fail the checksum where they do not XOR to zero. -/
theorem Rx.feed_ready_nonzero {w n : Nat} {l : Byte} {bs : List Byte} (hl : bs.length + 2 = l.toNat) (hne : bs ≠ [])
    (hfold : foldXor ([0xAA#8, l] ++ bs) ≠ 0x00#8) :
    (Rx.ready n).feed w ([0xAA#8, l] ++ bs) = (Rx.ready n, [.malformedFrame .checksumFailed]) := by
  obtain rfl | ⟨body, c, rfl⟩ := bs.eq_nil_or_concat'
  · exact absurd rfl hne
  · rw [← List.append_assoc] at hfold ⊢
    exact Rx.feed_ready_frame_bad (by simpa using hl) fun hc => hfold (foldXor_concat_eq_zero.mpr hc)

/-- An encoded frame is a start byte, its length and what follows, and XORs to zero. -/
theorem encodeFrame_eq_cons {p f : List Byte} (h : encodeFrame p = .ok f) :
    ∃ l g, f = 0xAA#8 :: l :: g ∧ g ≠ [] ∧ l.toNat = g.length + 2 ∧ foldXor f = 0x00#8 := by
  obtain ⟨hp, rfl⟩ := encodeFrame_eq_ok h
  refine ⟨_, p ++ [foldXor (frameBody p)], rfl, by simp, ?_, foldXor_concat_eq_zero.mpr rfl⟩
  rw [lengthByte_toNat hp, List.length_append, List.length_singleton]

/-- Settles O50: an encoded frame XORs to zero, so with one changed byte it does not. -/
theorem corruptedByteFailsChecksum : Obligations.CorruptedByteFailsChecksum := by
  intro p f j b b' s k n hf hj hb hne hr
  obtain ⟨l, g, rfl, hg, hl, hzero⟩ := encodeFrame_eq_cons hf
  obtain ⟨i, rfl⟩ := Nat.exists_eq_add_of_le' hj
  have hfold := hzero ▸ foldXor_set_ne hb hne.symm
  have hlen : (g.set i b').length + 2 = l.toNat := by rw [List.length_set, hl]
  have hset : g.set i b' ≠ [] := by simpa using hg
  exact exec_rxChunk_of_feed_self hr rfl (Rx.feed_ready_nonzero hlen hset hfold)

/-- Chunks that the phase machine makes the same of are the same to RX_CHUNK. -/
theorem exec_rxChunk_congr {s : State} {k : Nat} {r : Rx} {bs cs : List Byte} (hr : s.rx[k]? = some r)
    (ho : r.isOpen = true) (h : r.feed s.counterWidth bs = r.feed s.counterWidth cs) :
    exec (.rxChunk k bs) s = exec (.rxChunk k cs) s := by
  rw [exec_rxChunk_of_feed hr ho h, exec_rxChunk_of_feed hr ho rfl]

/-- Settles O51: the changed byte is noise to the scan, and so are the others where none is `0xAA`. -/
theorem corruptedStartIsNoise : Obligations.CorruptedStartIsNoise := by
  intro p f b s k n hf hb hr
  obtain ⟨l, g, rfl, -, -, -⟩ := encodeFrame_eq_cons hf
  have hfeed : (Rx.ready n).feed s.counterWidth (b :: l :: g) = (Rx.ready n).feed s.counterWidth (l :: g) :=
    Rx.feed_append_of_silent (Rx.feed_noise _ rfl (List.forall_mem_singleton.mpr hb)) (l :: g)
  have hsame : exec (.rxChunk k (b :: l :: g)) s = exec (.rxChunk k (l :: g)) s :=
    exec_rxChunk_congr hr rfl hfeed
  exact ⟨hsame, fun hnoise => hsame.trans (exec_rxChunk_of_feed_self hr rfl (Rx.feed_noise _ rfl hnoise))⟩

/-- A start byte and a length byte below 3 (R132). -/
theorem Rx.feed_ready_lengthTooSmall {w n : Nat} {l : Byte} (hl : l.toNat < 3) :
    (Rx.ready n).feed w [0xAA#8, l] = (Rx.ready n, [.malformedFrame .lengthTooSmall]) := by
  rw [Rx.feed_cons, Rx.take_start w rfl, Rx.feed_singleton, Rx.take_lengthTooSmall rfl hl]
  rfl

/-- Settles O52: the receiver follows the length byte it got, so of the bytes after it the first `L' - 3` are the payload
and the next is the checksum, as far as there are so many. -/
theorem corruptedLengthIsFollowed : Obligations.CorruptedLengthIsFollowed := by
  intro p f l s k n hf _ hr
  obtain ⟨l₀, g, rfl, -, -, -⟩ := encodeFrame_eq_cons hf
  refine ⟨fun hl => ?small, fun hl => ?large, fun hmin hl c hc => ?between⟩
  case small => exact exec_rxChunk_of_feed_self hr rfl (Rx.feed_ready_lengthTooSmall hl)
  case large =>
    have hdue : g.length + 3 ≤ l.toNat := hl
    refine ⟨Rx.inFrame n l g, rfl, rfl, rfl, rfl, ?_, exec_rxChunk_of_feed hr rfl (Rx.feed_ready_inFrame hdue)⟩
    simp [Rx.inFrame, eq_comm]
  case between =>
    obtain ⟨m, hm⟩ := Nat.exists_eq_add_of_le' hmin
    rw [hm] at hl hc ⊢
    have hg : g[m]? = some c := hc
    have hchunk : ((0xAA#8 :: l₀ :: g).set 1 l).take (m + 3) = [0xAA#8, l] ++ g.take m ++ [c] := by
      change 0xAA#8 :: l :: g.take (m + 1) = _
      rw [List.take_add_one, hg]
      rfl
    have hlen : (g.take m).length + 3 = l.toNat := by
      simp at hl ⊢
      omega
    rw [hchunk]
    exact ⟨fun hbad => exec_rxChunk_of_feed_self hr rfl (Rx.feed_ready_frame_bad hlen hbad),
      fun hok => exec_rxChunk_of_feed hr rfl (Rx.feed_ready_frame hlen hok)⟩

/-! ### The command frames on the line of an instance -/

/-- Settles O55: each frame's meaning is the delivery of the bytes the row of the opcode table writes out. -/
theorem commandFramesAreDelivered : Obligations.CommandFramesAreDelivered :=
  ⟨fun _ _ _ _ => rfl, fun _ _ _ _ _ _ _ => rfl, fun _ _ _ _ _ _ _ => rfl, fun _ _ => rfl⟩

/-- The bytes of a frame of the right length, delivered by `i` to a ready instance: the checksum byte decides. -/
theorem exec_frame_arrives {i : Instr} {s : State} {k n : Nat} {l c cks : Byte} {body : List Byte}
    (hi : exec i s = exec (.rxChunk k ([0xAA#8, l] ++ body ++ [c])) s) (hr : s.rx[k]? = some (Rx.ready n))
    (hl : body.length + 3 = l.toNat) (hcks : cks = foldXor ([0xAA#8, l] ++ body)) :
    (c = cks → exec i s = .next { s with
      rx := s.rx.set k (Rx.ready ((n + 1) % 2 ^ s.counterWidth))
      results := s.results ++ [.events [.completedFrame body ((n + 1) % 2 ^ s.counterWidth)]] }) ∧
    (c ≠ cks → exec i s = .next { s with results := s.results ++ [.events [.malformedFrame .checksumFailed]] }) := by
  subst hcks
  rw [hi]
  exact ⟨fun hok => exec_rxChunk_of_feed hr rfl (Rx.feed_ready_frame hl hok),
    fun hbad => exec_rxChunk_of_feed_self hr rfl (Rx.feed_ready_frame_bad hl hbad)⟩

/-- The checksum of a SERVO_SET frame: `AA`, its length and its descriptor fold to `AA` (40_checksum.md R104). -/
theorem foldXor_servo (a : Byte) : foldXor [0xAA#8, 0x05#8, 0x05#8, a] = 0xAA#8 ^^^ a :=
  foldXor_concat [0xAA#8, 0x05#8, 0x05#8] a

/-- The checksum of a frame whose bytes up to the descriptor fold to `h` (40_checksum.md R104). -/
theorem foldXor_stepper {d h : Byte} (hd : foldXor [0xAA#8, 0x11#8, d] = h) (i : Byte) (fields : List Byte) :
    foldXor (0xAA#8 :: 0x11#8 :: d :: i :: fields) = h ^^^ i ^^^ foldXor fields := by
  rw [← hd, ← foldXor_concat, ← foldXor_append]
  rfl

/-- Settles O56: the frame's two bytes of payload are those its length byte 5 declares. -/
theorem servoSetArrives : Obligations.ServoSetArrives := by
  intro s k n a c hr
  exact exec_frame_arrives (body := [0x05#8, a]) rfl hr rfl (foldXor_servo a).symm

/-- Settles O57: the frame's 14 bytes of payload are those its length byte `0x11` declares. -/
theorem stepperMovesArrive : Obligations.StepperMovesArrive := by
  intro s k n i a v p c hr
  obtain ⟨himm, himm'⟩ := exec_frame_arrives (i := .stepperMoveImm k i a v p c) rfl hr rfl
    (foldXor_stepper (d := 0x0A#8) (h := 0xB1#8) (by decide) i (be32Bytes a ++ be32Bytes v ++ be32Bytes p)).symm
  obtain ⟨hdef, hdef'⟩ := exec_frame_arrives (i := .stepperMoveDef k i a v p c) rfl hr rfl
    (foldXor_stepper (d := 0x0B#8) (h := 0xB0#8) (by decide) i (be32Bytes a ++ be32Bytes v ++ be32Bytes p)).symm
  exact ⟨himm, himm', hdef, hdef'⟩

/-- Settles O58: the frame's fixed checksum byte is the right one. -/
theorem execDeferredArrives : Obligations.ExecDeferredArrives := by
  intro s k n hr
  exact (exec_frame_arrives (body := [0x0C#8]) rfl hr rfl foldXor_execDef.symm).1 rfl

end Sys2Proof.Machine
end

section
/-! PROOFS. The encodings (30_encoding.md R75 to R86): decoder and encoder undo each other, and the rows of the opcode
table are disjoint. -/

namespace Sys2Proof

open Sys2Proof.Machine

/-! ### Decoding what was encoded -/

/-- Settles O2: one evaluation per operation; the stepper fields are joined as they were split, and the reserved op
codes keep their free bits. -/
theorem decodeOfEncode : Obligations.DecodeOfEncode := by
  intro i
  cases i with
  | stepperMoveImm k i a v p c =>
    simp [encode, decode, stepperFrame, stepperPayload, be32Bytes, decodeFrame, be32Join_be32Bytes]
  | stepperMoveDef k i a v p c =>
    have hdesc : descStepDef ≠ descStepImm := by decide
    simp [encode, decode, stepperFrame, stepperPayload, be32Bytes, decodeFrame, be32Join_be32Bytes, hdesc]
  | reservedAB x args => exact decode_reservedAB x args
  | reservedCF x args => exact decode_reservedCF x args
  | servoSet | execDeferred | chkCompute | encFrame | bldServo | bldStepImm | bldStepDef | bldExecDef | rxByte | rxChunk
  | connOpen | connClose => rfl

/-! ### Encoding what was decoded -/

/-- The bytes of a `be32` field are the digits base 256 of its pattern, most significant first (20_memory.md R52). -/
theorem be32Bytes_map_toNat (t : Word32) : (be32Bytes t).map BitVec.toNat =
    [t.toNat / 16777216, t.toNat / 65536 % 256, t.toNat / 256 % 256, t.toNat % 256] := by
  have hlt := t.isLt
  have htop : t.toNat / 16777216 % 256 = t.toNat / 16777216 := by omega
  simp [be32Bytes, BitVec.extractLsb'_toNat, Nat.shiftRight_eq_div_pow, htop]

theorem be32Join_toNat (b3 b2 b1 b0 : Byte) : (be32Join b3 b2 b1 b0).toNat =
    ((b3.toNat * 256 + b2.toNat) * 256 + b1.toNat) * 256 + b0.toNat := by
  have happend {w : Nat} (x : BitVec w) (b : Byte) : (x ++ b).toNat = x.toNat * 256 + b.toNat := by
    rw [BitVec.toNat_append, ← Nat.shiftLeft_add_eq_or_of_lt b.isLt, Nat.shiftLeft_eq]
  rw [← happend, ← happend, ← happend]
  rfl

/-- The pattern joined from four bytes lies in a frame as those four bytes (30_encoding.md R80). -/
theorem be32Bytes_be32Join (b3 b2 b1 b0 : Byte) : be32Bytes (be32Join b3 b2 b1 b0) = [b3, b2, b1, b0] := by
  have hinj : Function.Injective (BitVec.toNat (w := 8)) := fun _ _ => BitVec.eq_of_toNat_eq
  apply hinj.list_map
  have h2 := b2.isLt
  have h1 := b1.isLt
  have h0 := b0.isLt
  rw [be32Bytes_map_toNat, be32Join_toNat]
  simp only [List.map_cons, List.map_nil, List.cons.injEq, and_true]
  omega

/-- The op codes `0x0` to `0x9`. -/
theorem meaningful_opCodes : ∀ op : BitVec 4, op.toNat < 10 →
    op = 0x0#4 ∨ op = 0x1#4 ∨ op = 0x2#4 ∨ op = 0x3#4 ∨ op = 0x4#4 ∨ op = 0x5#4 ∨ op = 0x6#4 ∨ op = 0x7#4 ∨
    op = 0x8#4 ∨ op = 0x9#4 := by
  decide

/-- An op code that decodes has the operands of its own form (R85), or is reserved and keeps what came beside it. -/
theorem encode_of_decode_hostOp {op : BitVec 4} {args : Operands} {i : Instr}
    (h : decode (.hostOp op args) = .ok i) : encode i = .hostOp op args := by
  rcases Nat.lt_or_ge op.toNat 10 with hop | hop
  · rcases meaningful_opCodes op hop with rfl | rfl | rfl | rfl | rfl | rfl | rfl | rfl | rfl | rfl
    all_goals
      -- all forms of operands but the op's own are rejected
      cases args <;> cases h
      rfl
  · rcases reserved_opCode_patterns op hop with ⟨x, rfl⟩ | ⟨x, rfl⟩
    · rw [decode_reservedAB] at h
      cases h
      rfl
    · rw [decode_reservedCF] at h
      cases h
      rfl

/-- Bytes that decode are those of one of the four command frames. -/
theorem encode_of_decode_frame {k : Nat} {bytes : List Byte} {i : Instr} (h : decode (.frame k bytes) = .ok i) :
    encode i = .frame k bytes := by
  change decodeFrame k bytes = .ok i at h
  unfold decodeFrame at h
  split at h
  · split at h
    · next hm =>
      obtain ⟨rfl, rfl, rfl, rfl⟩ := hm
      cases h
      rfl
    · cases h
  · split at h
    · next hm =>
      obtain ⟨rfl, rfl, rfl⟩ := hm
      cases h
      rfl
    · cases h
  · split at h
    · next hm =>
      obtain ⟨rfl, rfl, rfl⟩ := hm
      cases h
      simp [encode, stepperFrame, stepperPayload, be32Bytes_be32Join]
    · split at h
      · next hm =>
        obtain ⟨rfl, rfl, rfl⟩ := hm
        cases h
        simp [encode, stepperFrame, stepperPayload, be32Bytes_be32Join]
      · cases h
  · cases h

/-- Settles O3: each format by itself. -/
theorem encodeOfDecode : Obligations.EncodeOfDecode := by
  intro q i h
  cases q with
  | hostOp op args => exact encode_of_decode_hostOp h
  | frame k bytes => exact encode_of_decode_frame h

/-- Settles O1: the words are evaluated. -/
theorem sampleWordsDecode : Obligations.SampleWordsDecode :=
  ⟨rfl, rfl, rfl, rfl, rfl, rfl, rfl, rfl⟩

/-! ### The rows of the opcode table -/

/-- The rows of spec/opcode_table.json. -/
def opcodeRows : List Row :=
  [(Instr.servoSet 0 0#8 0#8).row, (Instr.stepperMoveImm 0 0#8 0#32 0#32 0#32 0#8).row,
    (Instr.stepperMoveDef 0 0#8 0#32 0#32 0#32 0#8).row, (Instr.execDeferred 0).row, (Instr.chkCompute []).row,
    (Instr.encFrame []).row, (Instr.bldServo 0).row, (Instr.bldStepImm 0 0 0 0).row, (Instr.bldStepDef 0 0 0 0).row,
    Instr.bldExecDef.row, (Instr.rxByte 0 0#8).row, (Instr.rxChunk 0 []).row, (Instr.connOpen 0).row,
    (Instr.connClose 0).row, (Instr.reservedAB 0#1 .nothing).row, (Instr.reservedCF 0#2 .nothing).row]

theorem Instr.row_mem_opcodeRows (i : Instr) : i.row ∈ opcodeRows := by
  cases i <;> simp [opcodeRows, Instr.row]

theorem opcodeRows_hostOp_nbits : ∀ r ∈ opcodeRows, r.format = .hostOp → r.nbits = 4 := by
  decide

/-- Two rows of one format and width whose patterns agree on the bits both masks cover are one row. -/
theorem opcodeRows_disjoint : ∀ r ∈ opcodeRows, ∀ r' ∈ opcodeRows, r.format = r'.format → r.nbits = r'.nbits →
    r.pattern &&& r'.mask = r'.pattern &&& r.mask → r = r' := by
  decide

section rows
variable {r r' : Row}

theorem Row.matches_hostOp_iff {op : BitVec 4} {args : Operands} :
    r.matches (.hostOp op args) = true ↔ r.format = .hostOp ∧ op.toNat &&& r.mask = r.pattern := by
  simp [Row.matches]

theorem Row.matches_frame_iff {k : Nat} {bytes : List Byte} :
    r.matches (.frame k bytes) = true ↔
      r.format = .frame ∧ bytes.length * 8 = r.nbits ∧ beNumber bytes &&& r.mask = r.pattern := by
  simp [Row.matches, and_assoc]

/-- The patterns one word agrees with agree on the bits both masks cover. -/
theorem Row.patterns_agree {n : Nat} (h : n &&& r.mask = r.pattern) (h' : n &&& r'.mask = r'.pattern) :
    r.pattern &&& r'.mask = r'.pattern &&& r.mask := by
  rw [← h, ← h', Nat.and_right_comm]

/-- A request agrees with one row of the table at most. -/
theorem Row.eq_of_matches {q : Request} (hr : r ∈ opcodeRows) (hr' : r' ∈ opcodeRows) (h : r.matches q = true)
    (h' : r'.matches q = true) : r = r' := by
  cases q with
  | hostOp op args =>
    obtain ⟨hf, hm⟩ := Row.matches_hostOp_iff.mp h
    obtain ⟨hf', hm'⟩ := Row.matches_hostOp_iff.mp h'
    have hn := opcodeRows_hostOp_nbits r hr hf
    have hn' := opcodeRows_hostOp_nbits r' hr' hf'
    exact opcodeRows_disjoint r hr r' hr' (hf.trans hf'.symm) (hn.trans hn'.symm) (Row.patterns_agree hm hm')
  | frame k bytes =>
    obtain ⟨hf, hn, hm⟩ := Row.matches_frame_iff.mp h
    obtain ⟨hf', hn', hm'⟩ := Row.matches_frame_iff.mp h'
    exact opcodeRows_disjoint r hr r' hr' (hf.trans hf'.symm) (hn.symm.trans hn') (Row.patterns_agree hm hm')

end rows

/-- The word of every operation agrees with the operation's row of the table. -/
theorem Instr.row_matches_encode (i : Instr) : i.row.matches (encode i) = true := by
  cases i with
  | servoSet => exact Laws.RowOfEncoding.servoSet ..
  | stepperMoveImm => exact Laws.RowOfEncoding.stepperMoveImm ..
  | stepperMoveDef => exact Laws.RowOfEncoding.stepperMoveDef ..
  | execDeferred => exact Laws.RowOfEncoding.execDeferred ..
  | chkCompute => exact Laws.RowOfEncoding.chkCompute ..
  | encFrame => exact Laws.RowOfEncoding.encFrame ..
  | bldServo => exact Laws.RowOfEncoding.bldServo ..
  | bldStepImm => exact Laws.RowOfEncoding.bldStepImm ..
  | bldStepDef => exact Laws.RowOfEncoding.bldStepDef ..
  | bldExecDef => exact Laws.RowOfEncoding.bldExecDef
  | rxByte => exact Laws.RowOfEncoding.rxByte ..
  | rxChunk => exact Laws.RowOfEncoding.rxChunk ..
  | connOpen => exact Laws.RowOfEncoding.connOpen ..
  | connClose => exact Laws.RowOfEncoding.connClose ..
  | reservedAB => exact Laws.RowOfEncoding.reservedAB ..
  | reservedCF => exact Laws.RowOfEncoding.reservedCF ..

/-- Settles O4: the request is the operation's encoding, which agrees with the operation's row, and the table's rows are
disjoint. -/
theorem rowsAreDisjoint : Obligations.RowsAreDisjoint := by
  intro q i j hd
  have hmatch : i.row.matches q = true := encodeOfDecode q i hd ▸ i.row_matches_encode
  exact ⟨hmatch, fun hj => Row.eq_of_matches j.row_mem_opcodeRows i.row_mem_opcodeRows hj hmatch⟩

end Sys2Proof
end

section
/-! PROOFS. The step and the power-on state (20_memory.md R57; 60_exceptions.md R167; 70_reset_and_hazards.md R180): a
step runs or refuses the oldest issue, and every instance starts closed and empty. -/

namespace Sys2Proof.Machine

open Sys2Proof

/-! ### The step -/

/-- Settles O5: a request that decodes and overlaps nothing is taken up and run. -/
theorem stepRunsDecodedOperation : Obligations.StepRunsDecodedOperation := by
  intro s q rest i hp hd hfree
  exact step_of_fetch hp (Issue.fetch_of_decode hd hfree)

theorem decode_of_decodeTableWord {nbits w : Nat} {i : Instr} (h : decodeTableWord nbits w = some i) :
    decode (requestOfWord nbits w) = .ok i := by
  rw [decodeTableWord] at h
  split at h
  · next j hd => cases h; exact hd
  · cases h

/-- Settles O6: the word is issued as the oldest, with nothing in progress. -/
theorem issuedWordRunsNext : Obligations.IssuedWordRunsNext := by
  intro s nbits w i h
  have hfetch := Issue.fetch_of_decode (q := ⟨requestOfWord nbits w, []⟩) (decode_of_decodeTableWord h)
    fun _ _ => List.not_mem_nil
  exact step_of_fetch (s := s.withFetchWord nbits w) rfl hfetch

theorem step_of_fetch_error {s : State} {q : Issue} {rest : List Issue} {x : Refusal} (hp : s.program = q :: rest)
    (hq : q.fetch = .error x) : step s = .refused x := by
  simp only [step, hp, hq]

theorem Issue.fetch_of_reject {q : Issue} {e : Reject} (hd : decode q.request = .error e) :
    q.fetch = .error (Refusal.ofReject e) := by
  simp only [Issue.fetch, hd]

theorem Issue.fetch_of_overlap {q : Issue} {i : Instr} {k : Nat} (hd : decode q.request = .ok i)
    (hi : i.rxTarget = some k) (hk : k ∈ q.inProgress) : q.fetch = .error (.overlappingRx k) := by
  simp only [Issue.fetch, hd, overlapOf, hi, if_pos hk]

/-- Settles O7: on either ground the issue is not taken up. -/
theorem stepRefusesWhatHasNoMeaning : Obligations.StepRefusesWhatHasNoMeaning := by
  intro s q rest hp
  exact ⟨fun e hd => step_of_fetch_error hp (Issue.fetch_of_reject hd),
    fun i k hd hi hk => step_of_fetch_error hp (Issue.fetch_of_overlap hd hi hk)⟩

/-- Settles O8: the step looks at the program first. -/
theorem stepWaitsForTheHost : Obligations.StepWaitsForTheHost := by
  intro s hp
  simp only [step, hp]

/-! ### The power-on state -/

/-- Settles O10: `State.resetWith` holds `n` copies of the power-on instance. -/
theorem resetIsPowerOn : Obligations.ResetIsPowerOn := by
  refine ⟨fun n w k hk => ?instances, fun n w => ⟨?number, rfl, rfl, rfl⟩, rfl⟩
  case instances => rw [State.resetWith, List.getElem?_replicate, if_pos hk, Rx.powerOn]
  case number => rw [State.nConn, State.resetWith, List.length_replicate]

end Sys2Proof.Machine
end

section
/-! PROOFS. When RX operations return and when they are refused (42_receiver.md R130, R142; 60_exceptions.md R167), and
RX_BYTE on a length and on a checksum byte (R132, R133, R135, R136). -/

namespace Sys2Proof.Machine

open Sys2Proof

/-! ### Refused and completed operations -/

/-- Settles O45: every such operation is an RX_CHUNK. -/
theorem closedInstanceRefusesBytes : Obligations.ClosedInstanceRefusesBytes := by
  intro s k r hr hc i hi hopen hclose
  rcases rx_operation_kinds hi with rfl | rfl | ⟨-, -, bs, hbs⟩
  · exact absurd rfl hopen
  · exact absurd rfl hclose
  · rw [hbs, exec_rxChunk_of_closed bs hr hc]

/-- An operation on a missing instance is not well formed. -/
theorem getElem?_of_not_wellFormed {s : State} {i : Instr} {k : Nat} (hi : i.rxTarget = some k)
    (h : i.wellFormed s.nConn = false) : s.rx[k]? = none := by
  rw [Instr.wellFormed, hi] at h
  exact List.getElem?_eq_none (Nat.not_lt.mp (of_decide_eq_false h))

/-- Settles O46: each kind of RX operation looks its instance up first. -/
theorem missingInstanceIsRefused : Obligations.MissingInstanceIsRefused := by
  intro s i k hi hwf
  have hk := getElem?_of_not_wellFormed hi hwf
  rcases rx_operation_kinds hi with rfl | rfl | ⟨-, -, bs, hbs⟩
  · exact onRx_of_none _ hk
  · exact onRx_of_none _ hk
  · rw [hbs]
    exact onOpenRx_of_none _ hk

/-- Settles O47: CONN_OPEN and CONN_CLOSE complete on any instance, an RX_CHUNK on an open one. -/
theorem rxOperationsAlwaysReturn : Obligations.RxOperationsAlwaysReturn := by
  intro s i k r hi hr hready
  rcases rx_operation_kinds hi with rfl | rfl | ⟨hopen, hclose, bs, hbs⟩
  · exact ⟨_, _, _, exec_connOpen_of_some hr, rfl, .inl rfl⟩
  · exact ⟨_, _, _, exec_connClose_of_some hr, rfl, .inr ⟨[], rfl⟩⟩
  · have ho : r.isOpen = true := hready.resolve_right (not_or_intro hopen hclose)
    exact ⟨_, _, _, (hbs s).trans (exec_rxChunk_of_feed hr ho rfl), rfl, .inr ⟨_, rfl⟩⟩

/-! ### RX_BYTE on a length and a checksum byte -/

/-- Settles O36: a legal length byte is taken as the length, and 3 leaves no payload to wait for. -/
theorem rxByteTakesLength : Obligations.RxByteTakesLength := by
  intro s k r b hr ho hp
  refine ⟨fun hb => ?small, fun hb => ?least, fun hb => ?more⟩
  case small => exact exec_rxByte_of_take hr ho (Rx.take_lengthTooSmall hp hb)
  case least =>
    have htake := Rx.take_length_legal (w := s.counterWidth) hp hb.ge
    rw [if_pos hb] at htake
    exact exec_rxByte_of_take hr ho htake
  case more =>
    have htake := Rx.take_length_legal (w := s.counterWidth) hp hb.le
    rw [if_neg hb.ne'] at htake
    exact exec_rxByte_of_take hr ho htake

/-- Settles O39: the byte is compared with the running XOR. -/
theorem rxByteChecksChecksum : Obligations.RxByteChecksChecksum := by
  intro s k r b hr ho hp
  refine ⟨fun hb => ?completes, fun hb => ?fails⟩
  case completes =>
    subst hb
    exact exec_rxByte_of_take hr ho (Rx.take_checksum_match hp)
  case fails => exact exec_rxByte_of_take hr ho (Rx.take_checksumFailed hp hb)

end Sys2Proof.Machine
end

section
/-! PROOFS. ENC (41_encoder.md R110 to R119): the conversions in range and out of it, the payloads the builders return,
their frames as the command frames of the opcode table, and the errors. -/

namespace Sys2Proof.Machine

open Sys2Proof

/-! ### The conversions (R115 to R117) -/

/-- The saturated angle fits a byte, so the byte is the angle. -/
theorem angleByte_toNat (angle : Int) : ((angleByte angle).toNat : Int) = min (max angle 0) 255 := by
  rw [angleByte, clamp, BitVec.toNat_ofInt]
  omega

theorem idByte_of_range {id : Int} (h : -255 ≤ id ∧ id ≤ 255) : idByte id = .ok (BitVec.ofNat 8 id.natAbs) :=
  if_neg (by omega)

theorem be32_of_range {v : Int} (h : -2147483648 ≤ v ∧ v ≤ 2147483647) : be32 v = .ok (be32Bytes (tc32 v)) :=
  if_neg (by rw [Config.intMin, Config.intMax]; omega)

theorem tc32_toInt {v : Int} (h : -2147483648 ≤ v ∧ v ≤ 2147483647) : (tc32 v).toInt = v :=
  (be32_ok (be32_of_range h)).2

theorem tc32_toNat (v : Int) : (tc32 v).toNat = (v % 4294967296).toNat := by
  rw [tc32, BitVec.toNat_ofInt]
  rfl

theorem range_of_idByte_ok {id : Int} {b : Byte} (h : idByte id = .ok b) : -255 ≤ id ∧ id ≤ 255 := by
  have hb := idByte_ok h
  have hlt := b.isLt
  omega

theorem range_of_be32_ok {v : Int} {bs : List Byte} (h : be32 v = .ok bs) : -2147483648 ≤ v ∧ v ≤ 2147483647 := by
  obtain ⟨-, hv⟩ := be32_ok h
  have hle := (tc32 v).le_toInt
  have hlt := (tc32 v).toInt_lt
  omega

/-! ### The stepper builders (R112, R113) -/

/-- The operands a stepper builder converts: an id of absolute value up to 255 and three fields of 32 signed bits. -/
def StepperInRange (id accel vel pos : Int) : Prop :=
  (-255 ≤ id ∧ id ≤ 255) ∧ (-2147483648 ≤ accel ∧ accel ≤ 2147483647) ∧ (-2147483648 ≤ vel ∧ vel ≤ 2147483647) ∧
    (-2147483648 ≤ pos ∧ pos ≤ 2147483647)

section stepper
variable {d : Byte} {id accel vel pos : Int}

theorem not_stepperInRange_iff : ¬ StepperInRange id accel vel pos ↔
    (id < -255 ∨ 255 < id ∨ accel < -2147483648 ∨ 2147483647 < accel ∨ vel < -2147483648 ∨ 2147483647 < vel ∨
      pos < -2147483648 ∨ 2147483647 < pos) := by
  rw [StepperInRange]
  omega

theorem buildStepper_of_inRange (h : StepperInRange id accel vel pos) : buildStepper d id accel vel pos =
    .ok (stepperPayload d (BitVec.ofNat 8 id.natAbs) (tc32 accel) (tc32 vel) (tc32 pos)) := by
  obtain ⟨hid, haccel, hvel, hpos⟩ := h
  simp only [buildStepper, idByte_of_range hid, be32_of_range haccel, be32_of_range hvel, be32_of_range hpos]
  rfl

/-- A stepper builder returns a payload only where all four operands converted. -/
theorem inRange_of_buildStepper_ok {p : List Byte} (h : buildStepper d id accel vel pos = .ok p) :
    StepperInRange id accel vel pos := by
  rw [buildStepper] at h
  split at h
  · cases h
  · next hid =>
    split at h
    · cases h
    · next haccel =>
      split at h
      · cases h
      · next hvel =>
        split at h
        · cases h
        · next hpos =>
          exact ⟨range_of_idByte_ok hid, range_of_be32_ok haccel, range_of_be32_ok hvel, range_of_be32_ok hpos⟩

theorem buildStepper_eq_ok {p : List Byte} (h : buildStepper d id accel vel pos = .ok p) :
    p = stepperPayload d (BitVec.ofNat 8 id.natAbs) (tc32 accel) (tc32 vel) (tc32 pos) :=
  Except.ok.inj (h.symm.trans (buildStepper_of_inRange (inRange_of_buildStepper_ok h)))

/-- Out of range a stepper builder raises its one error. -/
theorem buildStepper_of_not_inRange (h : ¬ StepperInRange id accel vel pos) :
    buildStepper d id accel vel pos = .error .numericOverflow := by
  cases hb : buildStepper d id accel vel pos with
  | ok p => exact absurd (inRange_of_buildStepper_ok hb) h
  | error e => rw [buildStepper_error hb]

/-- What an operation returns that computes a stepper payload. -/
theorem stepper_operation_returns {i : Instr} {s : State}
    (hi : exec i s = .next (s.finish (buildStepper d id accel vel pos))) :
    (StepperInRange id accel vel pos →
      ∃ (b : Byte) (a v p : Word32), b.toNat = id.natAbs ∧ a.toInt = accel ∧ v.toInt = vel ∧ p.toInt = pos ∧
        exec i s = .next { s with results := s.results ++
          [.okBytes ([d, b] ++ be32Bytes a ++ be32Bytes v ++ be32Bytes p)] }) ∧
    (¬ StepperInRange id accel vel pos →
      exec i s = .next { s with results := s.results ++ [.err .numericOverflow] }) := by
  rw [hi]
  constructor
  · intro hrange
    have ⟨hid, haccel, hvel, hpos⟩ := hrange
    refine ⟨_, _, _, _, idByte_ok (idByte_of_range hid), tc32_toInt haccel, tc32_toInt hvel, tc32_toInt hpos, ?_⟩
    rw [buildStepper_of_inRange hrange, State.finish_ok]
    rfl
  · intro hrange
    rw [State.finish_of_error (buildStepper_of_not_inRange hrange)]

end stepper

/-- Settles O27: the operation answers what the builder computes. -/
theorem bldStepImmReturnsPayload : Obligations.BldStepImmReturnsPayload := by
  intro id accel vel pos s
  obtain ⟨hin, hout⟩ := stepper_operation_returns (exec_bldStepImm id accel vel pos s)
  exact ⟨fun hid ha hv hp => hin ⟨hid, ha, hv, hp⟩, fun h => hout (not_stepperInRange_iff.mpr h)⟩

/-- Settles O28: the operation answers what the builder computes. -/
theorem bldStepDefReturnsPayload : Obligations.BldStepDefReturnsPayload := by
  intro id accel vel pos s
  obtain ⟨hin, hout⟩ := stepper_operation_returns (exec_bldStepDef id accel vel pos s)
  exact ⟨fun hid ha hv hp => hin ⟨hid, ha, hv, hp⟩, fun h => hout (not_stepperInRange_iff.mpr h)⟩

/-- Where a stepper operation returns bytes, they are the payload of its operands. -/
theorem stepper_operation_okBytes {id accel vel pos : Int} {s t : State} {payload : List Byte}
    (h : exec (.bldStepImm id accel vel pos) s = .next t ∨ exec (.bldStepDef id accel vel pos) s = .next t)
    (hres : t.results = s.results ++ [.okBytes payload]) :
    ∃ d, payload = stepperPayload d (BitVec.ofNat 8 id.natAbs) (tc32 accel) (tc32 vel) (tc32 pos) := by
  rcases h with h | h <;> cases h <;> exact ⟨_, buildStepper_eq_ok (State.finish_results_okBytes hres)⟩

theorem be32Bytes_tc32_map_toNat (v : Int) : (be32Bytes (tc32 v)).map BitVec.toNat =
    [(v % 4294967296).toNat / 16777216, (v % 4294967296).toNat / 65536 % 256,
      (v % 4294967296).toNat / 256 % 256, (v % 4294967296).toNat % 256] := by
  rw [be32Bytes_map_toNat, tc32_toNat]

/-- Settles O30: the three fields stand after the descriptor and the id, four bytes each. -/
theorem stepperFieldsAreBigEndian : Obligations.StepperFieldsAreBigEndian := by
  intro id accel vel pos s t payload h hres
  obtain ⟨d, rfl⟩ := stepper_operation_okBytes h hres
  refine ⟨rfl, fun off v hv => ?_⟩
  simp only [List.mem_cons, List.not_mem_nil, or_false, Prod.mk.injEq] at hv
  rcases hv with ⟨rfl, rfl⟩ | ⟨rfl, rfl⟩ | ⟨rfl, rfl⟩ <;> exact be32Bytes_tc32_map_toNat _

/-! ### The other builders and ENC_FRAME (R110, R111) -/

theorem exec_bldServo (angle : Int) (s : State) : exec (.bldServo angle) s = .next (s.finish (buildServo angle)) := rfl

theorem buildServo_eq (angle : Int) : buildServo angle = .ok [0x05#8, angleByte angle] := rfl

/-- Settles O26: the conversion of the angle is total. -/
theorem bldServoSaturates : Obligations.BldServoSaturates := by
  intro angle s
  refine ⟨angleByte angle, angleByte_toNat angle, ?_⟩
  rw [exec_bldServo, buildServo_eq, State.finish_ok, State.answer]

/-- Settles O23: the frame is the body and its checksum where the payload fits, and the error where it does not. -/
theorem encFrameReturnsFrame : Obligations.EncFrameReturnsFrame := by
  intro p s
  refine ⟨fun hp => ⟨?frame, by simp⟩, fun hp => ?error⟩
  case frame =>
    rw [exec_encFrame, encodeFrame_of_le hp, State.finish_ok]
    rfl
  case error => rw [exec_encFrame, State.finish_of_error (encodeFrame_of_gt hp)]

/-! ### The errors (60_exceptions.md R160, R162) -/

/-- Settles O25: only the stepper builders raise this error, exactly out of range. -/
theorem numericOverflowExactlyOutOfRange : Obligations.NumericOverflowExactlyOutOfRange := by
  refine ⟨fun i s t h => ⟨fun hres => ?returned, ?raised⟩, rfl⟩
  case returned =>
    have hrange {d : Byte} {id a v p : Int} (hb : buildStepper d id a v p = .error .numericOverflow) :
        ¬ StepperInRange id a v p := fun hr => by rw [buildStepper_of_inRange hr] at hb; cases hb
    rcases exec_results_err h hres with ⟨p, -, hp⟩ | ⟨id, a, v, p, rfl, hb⟩ | ⟨id, a, v, p, rfl, hb⟩
    · cases (encodeFrame_eq_error hp).1
    · exact ⟨id, a, v, p, .inl rfl, not_stepperInRange_iff.mp (hrange hb)⟩
    · exact ⟨id, a, v, p, .inr rfl, not_stepperInRange_iff.mp (hrange hb)⟩
  case raised =>
    rintro ⟨id, a, v, p, rfl | rfl, hout⟩ <;>
    · cases h
      rw [State.finish_of_error (buildStepper_of_not_inRange (not_stepperInRange_iff.mpr hout))]

/-- Settles O33: the three operations that return an error end in `finish` of it, and name no RX instance. -/
theorem encodeErrorsWriteNothing : Obligations.EncodeErrorsWriteNothing := by
  intro i s t e h hres
  rcases exec_results_err h hres with ⟨p, rfl, hc⟩ | ⟨id, a, v, p, rfl, hc⟩ | ⟨id, a, v, p, rfl, hc⟩ <;>
  · cases h
    exact ⟨State.finish_of_error hc, rfl⟩

/-! ### Builder, then ENC_FRAME (R119) -/

/-- All that a builder can return: a payload of one of three lengths, or its one error. -/
theorem builder_returns {built : Except EncError (List Byte)}
    (h : (∃ angle, built = buildServo angle) ∨ built = buildExecDef ∨
      ∃ d id accel vel pos, built = buildStepper d id accel vel pos) :
    (∃ p, built = .ok p ∧ (p.length = 1 ∨ p.length = 2 ∨ p.length = 14)) ∨ built = .error .numericOverflow := by
  rcases h with ⟨angle, rfl⟩ | rfl | ⟨d, id, accel, vel, pos, rfl⟩
  · exact .inl ⟨_, rfl, .inr (.inl rfl)⟩
  · exact .inl ⟨_, rfl, .inl rfl⟩
  · by_cases hrange : StepperInRange id accel vel pos
    · exact .inl ⟨_, buildStepper_of_inRange hrange, .inr (.inr rfl)⟩
    · exact .inr (buildStepper_of_not_inRange hrange)

/-- Settles O31: every payload's length is well under 252, and ENC_FRAME passes a builder's error on. -/
theorem builtPayloadsAlwaysFrame : Obligations.BuiltPayloadsAlwaysFrame := by
  intro built hbuilt
  rcases builder_returns hbuilt with ⟨p, rfl, hlen⟩ | rfl
  · have hfits : p.length ≤ 252 := by omega
    refine ⟨fun q hq => ?_, nofun⟩
    cases hq
    exact ⟨hlen, _, encodeFrame_of_le hfits, by simp⟩
  · refine ⟨nofun, fun e he => ?_⟩
    cases he
    exact ⟨rfl, rfl⟩

/-- A built frame comes from a payload, and is its body with the checksum. -/
theorem sendFrame_eq_ok {built : Except EncError (List Byte)} {f : List Byte} (h : sendFrame built = .ok f) :
    ∃ p, built = .ok p ∧ f = frameBody p ++ [foldXor (frameBody p)] := by
  cases built with
  | ok p => exact ⟨p, rfl, (encodeFrame_eq_ok h).2⟩
  | error e => cases h

/-- The frame built of a stepper payload is the wire frame of the converted operands. -/
theorem sendFrame_stepper {d h : Byte} {id accel vel pos : Int} {f : List Byte}
    (hd : foldXor [0xAA#8, 0x11#8, d] = h) (hf : sendFrame (buildStepper d id accel vel pos) = .ok f) :
    f = stepperFrame d (BitVec.ofNat 8 id.natAbs) (tc32 accel) (tc32 vel) (tc32 pos)
      (h ^^^ BitVec.ofNat 8 id.natAbs ^^^
        foldXor (be32Bytes (tc32 accel) ++ be32Bytes (tc32 vel) ++ be32Bytes (tc32 pos))) := by
  obtain ⟨p, hp, rfl⟩ := sendFrame_eq_ok hf
  rw [buildStepper_eq_ok hp, ← foldXor_stepper hd]
  rfl

/-- Settles O32: each built frame is the encoding of the command frame claimed. -/
theorem builtFramesAreCommandFrames : Obligations.BuiltFramesAreCommandFrames := by
  refine ⟨fun k angle f h => ?servo, fun k id a v p f h => ?imm, fun k id a v p f h => ?defer, fun k f h => ?execute⟩
  case servo =>
    obtain ⟨p, hp, rfl⟩ := sendFrame_eq_ok h
    cases hp
    rw [← foldXor_servo]
    exact decodeOfEncode (.servoSet k _ _)
  case imm =>
    rw [sendFrame_stepper (h := 0xB1#8) (by decide) h]
    exact decodeOfEncode (.stepperMoveImm k _ _ _ _ _)
  case defer =>
    rw [sendFrame_stepper (h := 0xB0#8) (by decide) h]
    exact decodeOfEncode (.stepperMoveDef k _ _ _ _ _)
  case execute =>
    obtain ⟨p, hp, rfl⟩ := sendFrame_eq_ok h
    cases hp
    exact decodeOfEncode (.execDeferred k)

end Sys2Proof.Machine
end
